-- ==== Sys2Proof/Word.lean ====
section
/-! DEFINITION. The two widths of the block: bytes of MEM and of frames, and 32-bit register words (00_scope.md R8, R9). -/

namespace Sys2Proof

/-- A byte: "an 8-bit unsigned value 0..255" (00_scope.md R9). -/
abbrev Byte := BitVec 8

/-- A register word, `u32` of the spec (00_scope.md R8, R9). -/
abbrev Word := BitVec 32

end Sys2Proof
end

