-- ==== Sys2Proof/Config.lean ====
section
/-! DEFINITION. What an implementation fixes (00_scope.md R6), and the two free values of the spec: the content of MEM
after power-on and the sink's answers. -/

namespace Sys2Proof

/-- The parameters of 00_scope.md R6. They are "configuration, not state" (10_state.md R20, R49); the model's State
carries them as data that no step changes (log 1). -/
structure Config where
  /-- MEM_SIZE: number of bytes of MEM. -/
  memSize : Nat
  /-- BUF_SIZE: size in bytes of the Channel Output scratch buffer. -/
  bufSize : Nat
  /-- CH_BUF_BASE: MEM address of the first byte of the scratch buffer. -/
  chBufBase : Nat
  /-- CH_ADDRESS: the Channel Output's frame address byte; the type is its constraint 0 to 0xFF. -/
  chAddress : Byte
  /-- CH_NAME: the human-readable name; no rule reads it (10_state.md R49). -/
  chName : String
  /-- REG_BASE: where the host bus places the register window; no rule reads it. -/
  regBase : Nat
  deriving DecidableEq, Repr

/-- The configuration "used for every vector and program" of 95_test_vectors.md; State.reset carries it (DESIGN CHOICE,
unsafe, log 1: the spec leaves the parameters open). -/
def Config.vectors : Config :=
  { memSize := 0x400, bufSize := 64, chBufBase := 0x300, chAddress := 0x7B#8, chName := "", regBase := 0 }

/-- What the external sink does with one transaction: the source's `write(bytes) -> bytes_written | error`
(42_channel_output.md R165), or no answer at all (R166, 93_implementation_defined.md U7). -/
inductive SinkReply where
  /-- The sink reports that it wrote `n` bytes. -/
  | written (n : Nat)
  /-- The sink reports an error. -/
  | error
  /-- The sink never answers. -/
  | noAnswer
  deriving DecidableEq, Repr, Inhabited

/-- FREE VALUE (log 3): what the MEM byte at an address holds when nothing has written it since power-on, "a free draw
at power-on, fixed from then on" (70_reset_and_hazards.md R201, U3). Its arguments are the number that names the power-on
and the address. -/
opaque Config.powerOnByte : Nat → Nat → Byte

/-- FREE VALUE (log 5): the sink's answer to a transaction that the environment has lined up no answer for, "a free draw
of each transaction" (42_channel_output.md R165, U10). Its arguments are the number that names the power-on and the count
of the transactions before this one. -/
opaque Config.sinkDraw : Nat → Nat → SinkReply

end Sys2Proof
end

