-- ==== Sys2Proof/Syntax.lean ====
section
/-! DEFINITION. The commands, the register names, and the host's side: bus transactions, program lines and the names of
the envelope's type and status values. -/

namespace Sys2Proof

/-- The commands, one constructor per row of spec/opcode_table.json (30_encoding.md R71). None has an operand field:
"operands are never in the word" (R70). -/
inductive Instr where
  /-- FENC: frame encode (40_frame_codec.md R102). -/
  | fenc
  /-- FDEC: frame decode (40_frame_codec.md R103). -/
  | fdec
  /-- PENC: envelope encode (41_packet_protocol.md R134). -/
  | penc
  /-- PDEC: envelope decode (41_packet_protocol.md R135). -/
  | pdec
  /-- PSIZE: envelope size bounds (41_packet_protocol.md R136). -/
  | psize
  /-- ACQ: acquire the payload region (42_channel_output.md R162). -/
  | acq
  /-- REL: frame, send and release (42_channel_output.md R163). -/
  | rel
  deriving DecidableEq, Repr

/-- The names of the seventeen registers (10_state.md R24). -/
inductive Reg where
  | cmd | status | srcPtr | srcLen | dstPtr | dstCap | outLen | outAux | frAddr | frCtrl
  | pktType | pktChannel | pktService | pktMethod | pktStatus | pktPayPtr | pktPayLen
  deriving DecidableEq, Repr

/-- One thing the outside does to the block: a bus transaction of the host (30_encoding.md R91, 20_memory.md R51) or a
reset by the platform (70_reset_and_hazards.md R200). A register access carries its width in bits, so that an access the
spec puts outside the model (10_state.md R21) can be written down and is refused by name. -/
inductive Input where
  /-- The host writes `v` at an offset of the register window. -/
  | regWrite (width off : Nat) (v : Word)
  /-- The host reads an offset of the register window. -/
  | regRead (width off : Nat)
  /-- The host writes one MEM byte. -/
  | memWrite (addr : Nat) (b : Byte)
  /-- The host reads one MEM byte. -/
  | memRead (addr : Nat)
  /-- The platform asserts reset. -/
  | reset
  deriving DecidableEq, Repr

/-- A line of a host program (30_encoding.md R89, R90). -/
inductive HostLine where
  /-- `wr <REG>, <value>` -/
  | wr (r : Reg) (v : Word)
  /-- `rd <REG>` -/
  | rd (r : Reg)
  /-- `mem <addr>, <b0> <b1> ...` -/
  | mem (addr : Nat) (bytes : List Byte)
  /-- `cmd <MNEMONIC>`, the one pseudo-instruction -/
  | cmd (i : Instr)
  deriving DecidableEq, Repr

/-- The names of the envelope `type` values (30_encoding.md R87). The block never checks them. -/
inductive EnvelopeType where
  | request | response | error
  deriving DecidableEq, Repr

/-- The names of the envelope `status` values (30_encoding.md R88). The block never checks them. -/
inductive RpcStatus where
  | ok | cancelled | unknown | invalidArgument | deadlineExceeded | notFound | alreadyExists | permissionDenied
  | resourceExhausted | failedPrecondition | aborted | outOfRange | unimplemented | internal | unavailable | dataLoss
  | unauthenticated
  deriving DecidableEq, Repr

end Sys2Proof
end

