-- ==== Sys2Proof/WellFormed.lean ====
section
/-! DEFINITION. The well-formedness checks: configurations (00_scope.md R6, 92_eei_decisions.md P1 to P6), host accesses
(93_implementation_defined.md U1, U2), program lines, and commands (which have no operand that could be ill-formed). -/

namespace Sys2Proof

/-- "A configuration that breaks a constraint is refused by the model; it describes no FCPE" (00_scope.md R6). The upper
bound of MEM_SIZE and the constraints of BUF_SIZE and CH_BUF_BASE are R6's; the 256-byte alignment of REG_BASE is P6's
(log 2). CH_ADDRESS is a byte by its type, and any CH_NAME will do. -/
def Config.wf (c : Config) : Bool :=
  decide (c.memSize ≤ 2 ^ 32) && decide (14 ≤ c.bufSize) && decide (c.chBufBase + c.bufSize ≤ c.memSize)
    && decide (c.regBase % 256 = 0)

/-- Every command is well-formed: a command word has no operand field (30_encoding.md R70). -/
def Instr.wf : Instr → Bool
  | .fenc => true
  | .fdec => true
  | .penc => true
  | .pdec => true
  | .psize => true
  | .acq => true
  | .rel => true

/-- The precondition of a host register access: "width 32, offset mod 4 = 0, offset < 0x100"
(93_implementation_defined.md U1, 10_state.md R21). -/
def regAccessWf (width off : Nat) : Bool :=
  decide (width = 32) && decide (off % 4 = 0) && decide (off < 0x100)

/-- The precondition of a host MEM access: "addr < MEM_SIZE" (93_implementation_defined.md U2, 20_memory.md R51). -/
def memAccessWf (c : Config) (addr : Nat) : Bool :=
  decide (addr < c.memSize)

/-- The inputs that the model does not refuse. -/
def Input.wf (c : Config) : Input → Bool
  | .regWrite width off _ => regAccessWf width off
  | .regRead width off => regAccessWf width off
  | .memWrite addr _ => memAccessWf c addr
  | .memRead addr => memAccessWf c addr
  | .reset => true

/-- The program lines whose transactions are all well-formed: a `mem` line stays inside MEM; every other line is. -/
def HostLine.wf (c : Config) : HostLine → Bool
  | .wr _ _ => true
  | .rd _ => true
  | .mem addr bytes => decide (bytes = []) || decide (addr + bytes.length ≤ c.memSize)
  | .cmd i => i.wf

end Sys2Proof
end

