-- ==== Sys2Proof/Decode.lean ====
section
/-! DEFINITION. The command word: the decoder, total on every 32-bit word and rejecting by name, and after it the encoder
(30_encoding.md R70 to R75). -/

namespace Sys2Proof

/-- Why a word is no command word (30_encoding.md R72). Each one ends in BAD_COMMAND, or FAULTED when FAULT = 1. -/
inductive DecodeError where
  /-- RSVD, bits 31:4, is not zero. -/
  | reservedBits
  /-- OPC = 0x0. -/
  | opcZero
  /-- OPC in 0x8..0xF. -/
  | opcUnassigned
  deriving DecidableEq, Repr

/-- OPC = w[3:0] (30_encoding.md R70). -/
def opcField (w : Word) : BitVec 4 := w.extractLsb' 0 4

/-- RSVD = w[31:4] (30_encoding.md R70). -/
def rsvdField (w : Word) : BitVec 28 := w.extractLsb' 4 28

/-- The decoder: "reads one 32-bit word and finds its command by rule R71 or rule R72 alone" (30_encoding.md R75). -/
def decode (w : Word) : Except DecodeError Instr :=
  if rsvdField w ≠ 0#28 then .error .reservedBits
  else
    match (opcField w).toNat with
    | 0 => .error .opcZero
    | 1 => .ok .fenc
    | 2 => .ok .fdec
    | 3 => .ok .penc
    | 4 => .ok .pdec
    | 5 => .ok .psize
    | 6 => .ok .acq
    | 7 => .ok .rel
    | _ => .error .opcUnassigned

/-- The encoder, from the opcode map of 30_encoding.md R71. -/
def encode : Instr → Word
  | .fenc => 0x00000001#32
  | .fdec => 0x00000002#32
  | .penc => 0x00000003#32
  | .pdec => 0x00000004#32
  | .psize => 0x00000005#32
  | .acq => 0x00000006#32
  | .rel => 0x00000007#32

/-- The command word of `nbits` bits whose bits are `w`: "every command is one word" of 32 bits (30_encoding.md R70), moved
whole (20_memory.md R56), so no byte order shows; the bits above `nbits` are 0. -/
def tableWord (nbits w : Nat) : Word := BitVec.ofNat 32 (w % 2 ^ nbits)

/-- The command the decoder reads from an opcode-table word. A word of more than 32 bits is no command word (R75). -/
def decodeTableWord (nbits w : Nat) : Option Instr :=
  if nbits > 32 then none
  else
    match decode (tableWord nbits w) with
    | .ok i => some i
    | .error _ => none

end Sys2Proof
end

