-- ==== Sys2Proof/Machine/State.lean ====
section
/-! DEFINITION. The state as plain data, the reasons a step can stop, and the state after reset. -/

namespace Sys2Proof.Machine

/-- The result codes of STATUS.RESULT (60_exceptions.md R180). The values 9 to 15 are "never produced", and "a model may
leave them out of its result type" (93_implementation_defined.md U16). -/
inductive Result where
  | ok | corruptFrame | bufferTooSmall | malformedPacket | contractViolation | badCommand | badRange | sinkError | faulted
  deriving DecidableEq, Repr

/-- The sink's answer as the block sees it (42_channel_output.md R165). -/
inductive SinkAnswer where
  | ok | err
  deriving DecidableEq, Repr

/-- One transaction of the sink history: "the full byte sequence of one frame with the sink's response" (10_state.md R45). -/
structure SinkRecord where
  frame : List Byte
  answer : SinkAnswer
  deriving DecidableEq, Repr

/-- What one host read returned: "the value read is what the program observes" (30_encoding.md R89). -/
inductive Observation where
  | reg (off : Nat) (v : Word)
  | mem (addr : Nat) (b : Byte)
  deriving DecidableEq, Repr

/-- The bytes of MEM that have been written since power-on, by rising address. An unlisted byte is a free draw (log 3). -/
abbrev Memory := List Host.Cell

/-- Why the machine stops. -/
inductive Fault where
  /-- Raised by a step of a REL that waits for a sink that never answers, when no reset is to come: "the model must
  represent that as a stuck state" (42_channel_output.md R166, 93_implementation_defined.md U7). Safe: the hardware does
  not go on either (log 7). -/
  | awaitingSink
  deriving DecidableEq, Repr

/-- Why the model gives a step no meaning. -/
inductive Refusal where
  /-- Raised by exec for a command that has no meaning yet. Safe: the model stops. No arm answers it now. -/
  | notModelled (mnemonic : String)
  /-- Raised by step for a configuration that breaks a constraint: "refused by the model; it describes no FCPE"
  (00_scope.md R6). Safe: there is no such hardware. -/
  | badConfig
  /-- Raised by a host register access that is not an aligned 32-bit access inside the window: "the model refuses the host
  step" (10_state.md R21, U1). Safe: the model stops. -/
  | regAccessOutsideModel
  /-- Raised by a host MEM access at or above MEM_SIZE, "outside the model" (20_memory.md R51, U2). Safe: the model stops. -/
  | memAccessOutsideModel
  deriving DecidableEq, Repr

/-- The state of FCPE (10_state.md R20), its configuration and its surroundings. STATUS is not stored: its fields are
`result`, `acquired` and `fault` (10_state.md R26). CMD is not stored: it "keeps no value" (R25). -/
structure State where
  /-- The parameters; no step changes them (10_state.md R49, log 1). -/
  cfg : Config
  /-- MODEL'S OWN: names this power-on, the argument of the free draw of MEM; no step changes it (log 4). -/
  powerOn : Nat
  /-- SRC_PTR (10_state.md R27). -/
  srcPtr : Word
  /-- SRC_LEN (R28). -/
  srcLen : Word
  /-- DST_PTR (R29). -/
  dstPtr : Word
  /-- DST_CAP (R30). -/
  dstCap : Word
  /-- OUT_LEN (R31). -/
  outLen : Word
  /-- OUT_AUX (R32). -/
  outAux : Word
  /-- FR_ADDR[7:0]; the other bits read 0 (R33). -/
  frAddr : Byte
  /-- FR_CTRL[7:0]; the other bits read 0 (R34). -/
  frCtrl : Byte
  /-- PKT_TYPE (R35). -/
  pktType : Word
  /-- PKT_CHANNEL (R36). -/
  pktChannel : Word
  /-- PKT_SERVICE (R37). -/
  pktService : Word
  /-- PKT_METHOD (R38). -/
  pktMethod : Word
  /-- PKT_STATUS (R39). -/
  pktStatus : Word
  /-- PKT_PAY_PTR (R40). -/
  pktPayPtr : Word
  /-- PKT_PAY_LEN (R41). -/
  pktPayLen : Word
  /-- STATUS.RESULT (R26). -/
  result : Result
  /-- ACQUIRED, also STATUS[8] (R42). -/
  acquired : Bool
  /-- FAULT, also STATUS[9] (R43). -/
  fault : Bool
  /-- MEM (R44). -/
  mem : Memory
  /-- The sink history, oldest first (R45). -/
  sinkHistory : List SinkRecord
  /-- The frame of a REL that waits for a sink that has not answered (42_channel_output.md R166). -/
  waiting : Option (List Byte)
  /-- MODEL'S OWN, an input: the sink's coming answers, oldest first (log 5). -/
  sinkReplies : List SinkReply
  /-- MODEL'S OWN: transactions issued since power-on, the argument of the free draw of the sink's answer (log 5). -/
  sinkCount : Nat
  /-- MODEL'S OWN, an input: the coming host accesses and resets, oldest first (log 10). -/
  inputs : List Input
  /-- MODEL'S OWN, an output: what the host has read, oldest first (log 11). -/
  observed : List Observation
  deriving DecidableEq, Repr

/-- The state right after power-on and reset of an FCPE with configuration `c` (10_state.md R24, 70_reset_and_hazards.md
R200 to R202): every register 0, ACQUIRED and FAULT 0, the sink history empty, nothing in MEM written. `p` names the
power-on. -/
def State.resetWith (c : Config) (p : Nat) : State :=
  { cfg := c, powerOn := p,
    srcPtr := 0#32, srcLen := 0#32, dstPtr := 0#32, dstCap := 0#32, outLen := 0#32, outAux := 0#32,
    frAddr := 0#8, frCtrl := 0#8,
    pktType := 0#32, pktChannel := 0#32, pktService := 0#32, pktMethod := 0#32, pktStatus := 0#32,
    pktPayPtr := 0#32, pktPayLen := 0#32,
    result := .ok, acquired := false, fault := false,
    mem := [], sinkHistory := [], waiting := none,
    sinkReplies := [], sinkCount := 0, inputs := [], observed := [] }

/-- The state after reset. Its configuration and its `powerOn` are DESIGN CHOICES (logs 1 and 4). -/
def State.reset : State := State.resetWith Config.vectors 0

/-- What one command answers. -/
abbrev Answer := Host.Outcome State Fault Refusal

end Sys2Proof.Machine
end

