-- ==== Sys2Proof/Machine/Flags.lean ====
section
/-! DEFINITION. The status computations: the number of each result code (60_exceptions.md R180) and the STATUS word
(10_state.md R26). -/

namespace Sys2Proof.Machine

/-- The value of STATUS.RESULT for each result (60_exceptions.md R180). -/
def resultCode : Result → BitVec 4
  | .ok => 0#4
  | .corruptFrame => 1#4
  | .bufferTooSmall => 2#4
  | .malformedPacket => 3#4
  | .contractViolation => 4#4
  | .badCommand => 5#4
  | .badRange => 6#4
  | .sinkError => 7#4
  | .faulted => 8#4

/-- A flag as one bit. -/
def flagBit (b : Bool) : BitVec 1 := if b then 1#1 else 0#1

/-- The STATUS word: RESULT in [3:0], ACQUIRED in [8], FAULT in [9], every other bit reads 0 (10_state.md R26). -/
def statusWord (s : State) : Word :=
  0#22 ++ flagBit s.fault ++ flagBit s.acquired ++ 0#4 ++ resultCode s.result

end Sys2Proof.Machine
end

