-- ==== Sys2Proof/Machine/Ops.lean ====
section
/-! DEFINITION. The operations every command is built from: named state updates, MEM, how a command ends (finish, raise,
contract violation, the prologue), the capacity check, the sink port and reset. -/

namespace Sys2Proof.Machine

/-! ### Named updates of the state -/

/-- STATUS.RESULT <- r (10_state.md R26). -/
def State.setResult (s : State) (r : Result) : State := { s with result := r }

/-- OUT_LEN <- w (10_state.md R31). -/
def State.setOutLen (s : State) (w : Word) : State := { s with outLen := w }

/-- OUT_AUX <- w (10_state.md R32). -/
def State.setOutAux (s : State) (w : Word) : State := { s with outAux := w }

/-- ACQUIRED <- b (10_state.md R42). -/
def State.setAcquired (s : State) (b : Bool) : State := { s with acquired := b }

/-- FAULT <- b (10_state.md R43). -/
def State.setFault (s : State) (b : Bool) : State := { s with fault := b }

/-- MEM <- m. -/
def State.setMem (s : State) (m : Memory) : State := { s with mem := m }

/-- FR_ADDR <- a and FR_CTRL <- c, as FDEC writes them (40_frame_codec.md R103). -/
def State.setFrameFields (s : State) (a c : Byte) : State := { s with frAddr := a, frCtrl := c }

/-- One answered transaction joins the sink history (42_channel_output.md R165). -/
def State.recordSink (s : State) (r : SinkRecord) : State := { s with sinkHistory := s.sinkHistory ++ [r] }

/-- The draw of one transaction's answer is used up (log 5). -/
def State.takeReply (s : State) : State :=
  { s with sinkReplies := s.sinkReplies.tail, sinkCount := s.sinkCount + 1 }

/-- The REL in progress waits for the sink with its frame, or nothing waits (42_channel_output.md R166). -/
def State.setWaiting (s : State) (f : Option (List Byte)) : State := { s with waiting := f }

/-- The inputs still to come. -/
def State.setInputs (s : State) (l : List Input) : State := { s with inputs := l }

/-- The host has read something (30_encoding.md R89, log 11). -/
def State.observe (s : State) (o : Observation) : State := { s with observed := s.observed ++ [o] }

/-! ### MEM -/

/-- The canonical form: addresses strictly rising. A listed byte is one that has been written, and what an unlisted one
holds is a free draw that no entry can be compared with (log 3), so equal lists are equal memories. -/
abbrev Memory.wf (m : Memory) : Prop := List.Pairwise (fun x y => x.1 < y.1) m

/-- The byte written at an address, if one was written since power-on. -/
def Memory.lookup : Memory → Nat → Option Byte
  | [], _ => none
  | (a', b) :: m, a => if a' = a then some b else Memory.lookup m a

/-- Write one byte, keeping the addresses rising. -/
def Memory.store : Memory → Nat → Byte → Memory
  | [], a, b => [(a, b)]
  | (a', b') :: m, a, b =>
    if a < a' then (a, b) :: (a', b') :: m
    else if a = a' then (a, b) :: m
    else (a', b') :: Memory.store m a b

/-- Write bytes at rising addresses from `a`, the first at `a`. -/
def Memory.storeBytes : Memory → Nat → List Byte → Memory
  | m, _, [] => m
  | m, a, b :: bs => Memory.storeBytes (Memory.store m a b) (a + 1) bs

/-- What an address that nothing has written holds (70_reset_and_hazards.md R201, log 3): a free value. -/
def unwrittenByte (s : State) (a : Nat) : Byte := Config.powerOnByte s.powerOn a

/-- The one read of one byte of MEM, the host's and the block's. "No MEM access has a side effect" (20_memory.md R59). -/
def readByte (s : State) (a : Nat) : Byte :=
  match Memory.lookup s.mem a with
  | some b => b
  | none => unwrittenByte s a

/-- `MemRead(addr, n)`: "the n bytes MEM[addr .. addr+n-1] in address order" (00_scope.md R11). -/
def memRead (s : State) : Nat → Nat → List Byte
  | _, 0 => []
  | a, n + 1 => readByte s a :: memRead s (a + 1) n

/-- `MemWrite(addr, n, v)`: "writes byte sequence v of length n to MEM[addr .. addr+n-1], v[0] at addr" (00_scope.md R11). -/
def memWrite (s : State) (a : Nat) (v : List Byte) : State := s.setMem (Memory.storeBytes s.mem a v)

/-! ### How a command ends -/

/-- `finish(OK)`: "ends the command successfully, with STATUS.RESULT <- OK" (00_scope.md R12). -/
def finish (s : State) : Answer := .next (s.setResult .ok)

/-- `raise <Result>()`: "ends the command with STATUS.RESULT <- that result code" (00_scope.md R12). There is no trap
entry: no state is saved, no mode changes, nothing is jumped to (60_exceptions.md R184). -/
def raise (r : Result) (s : State) : Answer := .next (s.setResult r)

/-- The one exception that changes what the block does next: FAULT <- 1 and CONTRACT_VIOLATION (60_exceptions.md R180,
R182). The way back from it is reset alone (R185). -/
def contractViolation (s : State) : Answer := raise .contractViolation (s.setFault true)

/-- The FAULT check that opens every command: "if FAULT = 1: STATUS.RESULT <- FAULTED; stop" (60_exceptions.md R182). -/
def withPrologue (body : State → Answer) (s : State) : Answer :=
  if s.fault then raise .faulted s else body s

/-- `min(n, 0xFFFFFFFF)` as a register word (40_frame_codec.md R102, 41_packet_protocol.md R133). -/
def saturate (n : Nat) : Word := BitVec.ofNat 32 (min n 0xFFFFFFFF)

/-- The end FENC, FDEC and PENC share: the capacity check against DST_CAP, then either BUFFER_TOO_SMALL with OUT_LEN the
length needed, or the whole output at DST_PTR, OUT_LEN its length, `more` and OK (40_frame_codec.md R102, R103,
41_packet_protocol.md R134, 20_memory.md R55). -/
def deliver (out : List Byte) (more : State → State) (s : State) : Answer :=
  if out.length > s.dstCap.toNat then raise .bufferTooSmall (s.setOutLen (saturate out.length))
  else finish ((more (memWrite s s.dstPtr.toNat out)).setOutLen (BitVec.ofNat 32 out.length))

/-! ### The sink port -/

/-- The draw for the next transaction: the answer the environment has lined up, else the free value (42_channel_output.md
R165, log 5). -/
def sinkReply (s : State) : SinkReply :=
  match s.sinkReplies with
  | r :: _ => r
  | [] => Config.sinkDraw s.powerOn s.sinkCount

/-- The answer as the block sees it: "a response that reports fewer than len(f) bytes written counts as Err"
(42_channel_output.md R165, log 6); no answer is none. -/
def sinkAnswer (f : List Byte) : SinkReply → Option SinkAnswer
  | .written n => if n < f.length then some .err else some .ok
  | .error => some .err
  | .noAnswer => none

/-- REL from `SinkWrite(f)` on (42_channel_output.md R163, R165, R166): one transaction. With an answer it joins the
history, the region is released, OUT_LEN is the frame's length, and the answer decides OK or SINK_ERROR. Without one the
command waits, and nothing else has happened yet (log 7). -/
def sinkWriteAndRelease (f : List Byte) (s : State) : Answer :=
  match sinkAnswer f (sinkReply s) with
  | none => .next (s.takeReply.setWaiting (some f))
  | some a =>
    let done := ((s.takeReply.recordSink { frame := f, answer := a }).setAcquired false).setOutLen (BitVec.ofNat 32 f.length)
    match a with
    | .ok => finish done
    | .err => raise .sinkError done

/-! ### Reset -/

/-- Reset (70_reset_and_hazards.md R200, R201): every register to its reset value, ACQUIRED <- 0, FAULT <- 0, the sink
history emptied, a waiting REL abandoned; MEM keeps its content, and so do the configuration and the model's own fields. -/
def applyReset (s : State) : State :=
  { State.resetWith s.cfg s.powerOn with
    mem := s.mem, sinkReplies := s.sinkReplies, sinkCount := s.sinkCount, inputs := s.inputs, observed := s.observed }

end Sys2Proof.Machine
end

