-- ==== Sys2Proof/Machine/Operands.lean ====
section
/-! DEFINITION. The operand forms: regions and their range check, the Channel Output's capacity, the register map as the
host reaches it, and the numbers of the envelope's named values. -/

namespace Sys2Proof.Machine

/-- `InRange(ptr, n)`: "holds exactly when ptr + n ≤ MEM_SIZE, computed on natural numbers" (20_memory.md R53). -/
abbrev InRange (c : Config) (ptr n : Word) : Prop := ptr.toNat + n.toNat ≤ c.memSize

/-- `CAP = floor((BUF_SIZE - 14) / 2)` (00_scope.md R7, 42_channel_output.md R161). -/
def cap (c : Config) : Nat := (c.bufSize - 14) / 2

/-- The input region (SRC_PTR, SRC_LEN) as bytes (30_encoding.md R74). -/
def srcBytes (s : State) : List Byte := memRead s s.srcPtr.toNat s.srcLen.toNat

/-- The payload region (PKT_PAY_PTR, PKT_PAY_LEN) as bytes (30_encoding.md R74). -/
def pktPayload (s : State) : List Byte := memRead s s.pktPayPtr.toNat s.pktPayLen.toNat

/-- The first `used` = SRC_LEN bytes of the Channel Output's payload region (30_encoding.md R74, 42_channel_output.md R163). -/
def usedBytes (s : State) : List Byte := memRead s s.cfg.chBufBase s.srcLen.toNat

/-! ### The register map -/

/-- The offset of each register (10_state.md R24). -/
def regOffset : Reg → Nat
  | .cmd => 0x00
  | .status => 0x04
  | .srcPtr => 0x08
  | .srcLen => 0x0C
  | .dstPtr => 0x10
  | .dstCap => 0x14
  | .outLen => 0x18
  | .outAux => 0x1C
  | .frAddr => 0x20
  | .frCtrl => 0x24
  | .pktType => 0x28
  | .pktChannel => 0x2C
  | .pktService => 0x30
  | .pktMethod => 0x34
  | .pktStatus => 0x38
  | .pktPayPtr => 0x3C
  | .pktPayLen => 0x40

/-- The register at an offset; none where the offset "names no register" (10_state.md R22, R24). -/
def regAt (off : Nat) : Option Reg :=
  match off with
  | 0x00 => some .cmd
  | 0x04 => some .status
  | 0x08 => some .srcPtr
  | 0x0C => some .srcLen
  | 0x10 => some .dstPtr
  | 0x14 => some .dstCap
  | 0x18 => some .outLen
  | 0x1C => some .outAux
  | 0x20 => some .frAddr
  | 0x24 => some .frCtrl
  | 0x28 => some .pktType
  | 0x2C => some .pktChannel
  | 0x30 => some .pktService
  | 0x34 => some .pktMethod
  | 0x38 => some .pktStatus
  | 0x3C => some .pktPayPtr
  | 0x40 => some .pktPayLen
  | _ => none

/-- `zext_32(v)` (00_scope.md R13). -/
def zext32 (b : Byte) : Word := b.setWidth 32

/-- What a 32-bit read of a register returns. CMD reads 0; STATUS is computed; FR_ADDR and FR_CTRL read 0 above bit 7
(10_state.md R23 to R41). -/
def readReg (s : State) : Reg → Word
  | .cmd => 0#32
  | .status => statusWord s
  | .srcPtr => s.srcPtr
  | .srcLen => s.srcLen
  | .dstPtr => s.dstPtr
  | .dstCap => s.dstCap
  | .outLen => s.outLen
  | .outAux => s.outAux
  | .frAddr => zext32 s.frAddr
  | .frCtrl => zext32 s.frCtrl
  | .pktType => s.pktType
  | .pktChannel => s.pktChannel
  | .pktService => s.pktService
  | .pktMethod => s.pktMethod
  | .pktStatus => s.pktStatus
  | .pktPayPtr => s.pktPayPtr
  | .pktPayLen => s.pktPayLen

/-- What a read of an offset of the window returns: 0 where no register is (10_state.md R22). -/
def readOffset (s : State) (off : Nat) : Word :=
  match regAt off with
  | some r => readReg s r
  | none => 0#32

/-- A host write to a register other than CMD "only stores its value (or is ignored)" (20_memory.md R59): STATUS, OUT_LEN
and OUT_AUX ignore it, FR_ADDR and FR_CTRL keep bits [7:0] (10_state.md R23, R33, R34). CMD keeps no value (R25); that a
write to it starts a command is Machine/Bus.lean's. -/
def writeReg (s : State) (v : Word) : Reg → State
  | .cmd => s
  | .status => s
  | .srcPtr => { s with srcPtr := v }
  | .srcLen => { s with srcLen := v }
  | .dstPtr => { s with dstPtr := v }
  | .dstCap => { s with dstCap := v }
  | .outLen => s
  | .outAux => s
  | .frAddr => { s with frAddr := v.setWidth 8 }
  | .frCtrl => { s with frCtrl := v.setWidth 8 }
  | .pktType => { s with pktType := v }
  | .pktChannel => { s with pktChannel := v }
  | .pktService => { s with pktService := v }
  | .pktMethod => { s with pktMethod := v }
  | .pktStatus => { s with pktStatus := v }
  | .pktPayPtr => { s with pktPayPtr := v }
  | .pktPayLen => { s with pktPayLen := v }

/-! ### The host's names for envelope values -/

/-- REQUEST = 0, RESPONSE = 1, ERROR = 2 (30_encoding.md R87). -/
def typeValue : EnvelopeType → Word
  | .request => 0#32
  | .response => 1#32
  | .error => 2#32

/-- The status numbering (30_encoding.md R88). -/
def statusValue : RpcStatus → Word
  | .ok => 0#32
  | .cancelled => 1#32
  | .unknown => 2#32
  | .invalidArgument => 3#32
  | .deadlineExceeded => 4#32
  | .notFound => 5#32
  | .alreadyExists => 6#32
  | .permissionDenied => 7#32
  | .resourceExhausted => 8#32
  | .failedPrecondition => 9#32
  | .aborted => 10#32
  | .outOfRange => 11#32
  | .unimplemented => 12#32
  | .internal => 13#32
  | .unavailable => 14#32
  | .dataLoss => 15#32
  | .unauthenticated => 16#32

end Sys2Proof.Machine
end

