-- ==== Sys2Proof/Machine/Frame.lean ====
section
/-! DEFINITION. The frame wire format and the Frame Codec's two functions (30_encoding.md R76 to R80, 40_frame_codec.md
R100, R101). -/

namespace Sys2Proof.Machine

/-- FLAG, the frame delimiter (30_encoding.md R76). -/
def FLAG : Byte := 0x7E#8

/-- ESC, the escape marker (30_encoding.md R76). -/
def ESC : Byte := 0x7D#8

/-- MASK, the escape mask (30_encoding.md R76). -/
def MASK : Byte := 0x20#8

/-- `esc(b)` (30_encoding.md R78). -/
def esc (b : Byte) : List Byte := if b = FLAG ∨ b = ESC then [ESC, b ^^^ MASK] else [b]

/-- One of the 8 steps of the checksum's inner loop (30_encoding.md R79). -/
def crcBit (c : Word) : Word := if c.getLsbD 0 then (c >>> 1) ^^^ 0xEDB88320#32 else c >>> 1

/-- `n` steps of the inner loop. -/
def crcBits : Nat → Word → Word
  | 0, c => c
  | n + 1, c => crcBits n (crcBit c)

/-- The checksum register after one more byte (30_encoding.md R79). -/
def crcByte (c : Word) (b : Byte) : Word := crcBits 8 (c ^^^ b.setWidth 32)

/-- `crc32(s)` (30_encoding.md R79). -/
def crc32 (l : List Byte) : Word := l.foldl crcByte 0xFFFFFFFF#32 ^^^ 0xFFFFFFFF#32

/-- The bytes of a word, least significant first (30_encoding.md R80). -/
def wordBytes (c : Word) : List Byte :=
  [c.extractLsb' 0 8, c.extractLsb' 8 8, c.extractLsb' 16 8, c.extractLsb' 24 8]

/-- `fcs(s)`: the checksum, least significant byte first (30_encoding.md R80). -/
def fcs (l : List Byte) : List Byte := wordBytes (crc32 l)

/-- `concat(map esc s)` (00_scope.md R10). -/
def escapeAll (l : List Byte) : List Byte := l.flatMap esc

/-- The unescaped BODY with its checksum: `[ADDRESS] ++ [CONTROL] ++ PAYLOAD ++ FCS` (30_encoding.md R77). -/
def frameRaw (a c : Byte) (p : List Byte) : List Byte := (a :: c :: p) ++ fcs (a :: c :: p)

/-- `frameEncode(a, c, p)` (40_frame_codec.md R100). -/
def frameEncode (a c : Byte) (p : List Byte) : List Byte :=
  [FLAG] ++ escapeAll (frameRaw a c p) ++ [FLAG]

/-- The failure reasons of frameDecode. They "are one outcome to the host, CORRUPT_FRAME" (40_frame_codec.md R101). -/
inductive FrameFail where
  | delimiter | flagInBody | trailingEscape | short | checksum
  deriving DecidableEq, Repr

/-- The unescaping loop of frameDecode, front to back (40_frame_codec.md R101). -/
def unescape : List Byte → Except FrameFail (List Byte)
  | [] => .ok []
  | b :: rest =>
    if b = FLAG then .error .flagInBody
    else if b = ESC then
      match rest with
      | [] => .error .trailingEscape
      | n :: rest' =>
        if n = FLAG then .error .flagInBody
        else
          match unescape rest' with
          | .ok raw => .ok ((n ^^^ MASK) :: raw)
          | .error e => .error e
    else
      match unescape rest with
      | .ok raw => .ok (b :: raw)
      | .error e => .error e

/-- A decoded frame: address, control and payload. -/
structure Decoded where
  address : Byte
  control : Byte
  payload : List Byte
  deriving DecidableEq, Repr

/-- The checks of frameDecode on the unescaped bytes: at least 6, and the last 4 the checksum of the others
(40_frame_codec.md R101). -/
def checkRaw (raw : List Byte) : Except FrameFail Decoded :=
  if raw.length < 6 then .error .short
  else
    let body := raw.take (raw.length - 4)
    if raw.drop (raw.length - 4) ≠ fcs body then .error .checksum
    else
      match body with
      | a :: c :: p => .ok { address := a, control := c, payload := p }
      | _ => .error .short

/-- `frameDecode(f)` (40_frame_codec.md R101). -/
def frameDecode (f : List Byte) : Except FrameFail Decoded :=
  if f.length < 2 ∨ f.head? ≠ some FLAG ∨ f.getLast? ≠ some FLAG then .error .delimiter
  else
    match unescape (f.tail.dropLast) with
    | .error e => .error e
    | .ok raw => checkRaw raw

end Sys2Proof.Machine
end

