-- ==== Sys2Proof/Machine/ChannelOutput.lean ====
section
/-! DEFINITION. The Channel Output commands ACQ and REL (42_channel_output.md R162, R163). -/

namespace Sys2Proof.Machine

/-- ACQ after the prologue (42_channel_output.md R162). -/
def acqBody (s : State) : Answer :=
  if s.acquired then contractViolation s
  else
    finish (((s.setAcquired true).setOutAux (BitVec.ofNat 32 s.cfg.chBufBase)).setOutLen (BitVec.ofNat 32 (cap s.cfg)))

/-- ACQ: acquire the payload region (42_channel_output.md R162). -/
def execAcq (s : State) : Answer := withPrologue acqBody s

/-- The frame that REL sends: "ADDRESS = CH_ADDRESS and CONTROL = 0x00" (42_channel_output.md R160, R163). -/
def relFrame (s : State) : List Byte := frameEncode s.cfg.chAddress 0x00#8 (usedBytes s)

/-- REL after the prologue (42_channel_output.md R163). -/
def relBody (s : State) : Answer :=
  if s.acquired = false ∨ s.srcLen.toNat > cap s.cfg then contractViolation s
  else sinkWriteAndRelease (relFrame s) s

/-- REL: frame the used bytes, send them, release the region (42_channel_output.md R163). -/
def execRel (s : State) : Answer := withPrologue relBody s

end Sys2Proof.Machine
end

