-- ==== Sys2Proof/Machine/FrameCodec.lean ====
section
/-! DEFINITION. The Frame Codec commands FENC and FDEC (40_frame_codec.md R102, R103). -/

namespace Sys2Proof.Machine

/-- FENC after the prologue (40_frame_codec.md R102). -/
def fencBody (s : State) : Answer :=
  if ¬ InRange s.cfg s.srcPtr s.srcLen ∨ ¬ InRange s.cfg s.dstPtr s.dstCap then raise .badRange s
  else deliver (frameEncode s.frAddr s.frCtrl (srcBytes s)) id s

/-- FENC: frame encode (40_frame_codec.md R102). -/
def execFenc (s : State) : Answer := withPrologue fencBody s

/-- FDEC after the prologue: integrity is checked before capacity, and FR_ADDR and FR_CTRL are written on OK only
(40_frame_codec.md R103). -/
def fdecBody (s : State) : Answer :=
  if ¬ InRange s.cfg s.srcPtr s.srcLen ∨ ¬ InRange s.cfg s.dstPtr s.dstCap then raise .badRange s
  else
    match frameDecode (srcBytes s) with
    | .error _ => raise .corruptFrame s
    | .ok d => deliver d.payload (fun t => t.setFrameFields d.address d.control) s

/-- FDEC: frame decode (40_frame_codec.md R103). -/
def execFdec (s : State) : Answer := withPrologue fdecBody s

end Sys2Proof.Machine
end

