-- ==== Sys2Proof/Machine/Envelope.lean ====
section
/-! DEFINITION. The envelope wire format and the Packet Protocol's functions (30_encoding.md R81 to R86,
41_packet_protocol.md R130 to R133). -/

namespace Sys2Proof.Machine

/-- An envelope (41_packet_protocol.md, its opening; 30_encoding.md R81, R83). -/
structure Envelope where
  type : Word
  channelId : Word
  serviceId : Word
  methodId : Word
  payload : List Byte
  status : Word
  deriving DecidableEq, Repr

/-! ### Varints -/

/-- The loop of venc with at most `k` bytes after the first: `(v & 0x7F) | 0x80` is `v % 0x80 + 0x80`, and `v >> 7` is
`v / 0x80` (30_encoding.md R84). -/
def vencLoop : Nat → Nat → List Byte
  | 0, v => [BitVec.ofNat 8 v]
  | k + 1, v => if v ≥ 0x80 then BitVec.ofNat 8 (v % 0x80 + 0x80) :: vencLoop k (v / 0x80) else [BitVec.ofNat 8 v]

/-- `venc(v)` of a u32 v, 1 to 5 bytes (30_encoding.md R84). -/
def venc (v : Nat) : List Byte := vencLoop 4 v

/-- `vlen(v)` (30_encoding.md R84). -/
def vlen (v : Nat) : Nat :=
  if v < 2 ^ 7 then 1 else if v < 2 ^ 14 then 2 else if v < 2 ^ 21 then 3 else if v < 2 ^ 28 then 4 else 5

/-- The loop of vdec from its `k`-th byte with the value `v` so far; none is `Fail(varint)`. It answers the value and the
bytes after the varint (30_encoding.md R85). -/
def vdecLoop (k v : Nat) : List Byte → Option (Nat × List Byte)
  | [] => none
  | b :: rest =>
    if k = 4 ∧ b.toNat > 0x0F then none
    else
      let v' := v + b.toNat % 0x80 * 2 ^ (7 * k)
      if b.toNat < 0x80 then
        if k > 0 ∧ b.toNat = 0 then none else some (v', rest)
      else vdecLoop (k + 1) v' rest

/-- `vdec(s, i)` on the bytes from index i on (30_encoding.md R85). -/
def vdec (l : List Byte) : Option (Nat × List Byte) := vdecLoop 0 0 l

/-! ### Encoding -/

/-- A field: its key byte and its varint (30_encoding.md R82). -/
def field (key : Byte) (v : Nat) : List Byte := key :: venc v

/-- A field that is sent only when its value is not 0 (30_encoding.md R86). -/
def optField (key : Byte) (v : Nat) : List Byte := if v ≠ 0 then field key v else []

/-- The payload field: key, length and the bytes, sent only when there are any (30_encoding.md R82, R86). -/
def payloadField (p : List Byte) : List Byte := if p.length ≠ 0 then field 0x2A#8 p.length ++ p else []

/-- `envelopeEncode(e)` (41_packet_protocol.md R130). -/
def envelopeEncode (e : Envelope) : List Byte :=
  optField 0x08#8 e.type.toNat ++ optField 0x10#8 e.channelId.toNat ++ field 0x18#8 e.serviceId.toNat
    ++ field 0x20#8 e.methodId.toNat ++ payloadField e.payload ++ optField 0x30#8 e.status.toNat

/-! ### Decoding -/

/-- The failure reasons of envelopeDecode; each "is the one host outcome MALFORMED_PACKET" (41_packet_protocol.md R132). -/
inductive EnvelopeFail where
  | key | order | varint | default | overrun | missing
  deriving DecidableEq, Repr

/-- The variables of the decoding loop (41_packet_protocol.md R132). -/
structure Fields where
  t : Word
  ch : Word
  st : Word
  svc : Option Word
  mth : Option Word
  poff : Option Nat
  plen : Nat
  last : Nat
  deriving DecidableEq, Repr

/-- Their values before the loop. -/
def fieldsStart : Fields :=
  { t := 0#32, ch := 0#32, st := 0#32, svc := none, mth := none, poff := none, plen := 0, last := 0 }

/-- The field number of a key byte, `k >> 3`, for the six keys; none is `Fail(key)` (30_encoding.md R82,
41_packet_protocol.md R132). -/
def keyField (k : Byte) : Option Nat :=
  if k = 0x08#8 then some 1
  else if k = 0x10#8 then some 2
  else if k = 0x18#8 then some 3
  else if k = 0x20#8 then some 4
  else if k = 0x2A#8 then some 5
  else if k = 0x30#8 then some 6
  else none

/-- What field number `n` with varint value `v` does, `rest` being the bytes after the varint and `total` the length of
the whole source (41_packet_protocol.md R132). -/
def takeField (total n v : Nat) (rest : List Byte) (x : Fields) : Except EnvelopeFail (Fields × List Byte) :=
  match n with
  | 1 => if v = 0 then .error .default else .ok ({ x with t := BitVec.ofNat 32 v, last := 1 }, rest)
  | 2 => if v = 0 then .error .default else .ok ({ x with ch := BitVec.ofNat 32 v, last := 2 }, rest)
  | 3 => .ok ({ x with svc := some (BitVec.ofNat 32 v), last := 3 }, rest)
  | 4 => .ok ({ x with mth := some (BitVec.ofNat 32 v), last := 4 }, rest)
  | 5 =>
    if v = 0 then .error .default
    else if v > rest.length then .error .overrun
    else .ok ({ x with poff := some (total - rest.length), plen := v, last := 5 }, rest.drop v)
  | 6 => if v = 0 then .error .default else .ok ({ x with st := BitVec.ofNat 32 v, last := 6 }, rest)
  | _ => .error .key

/-- The decoding loop on the bytes still to read (41_packet_protocol.md R132). `fuel` bounds its passes: each takes at
least one byte, so the source's length is enough, and the last line is not reached (log 15). -/
def fieldLoop (total : Nat) : Nat → List Byte → Fields → Except EnvelopeFail Fields
  | _, [], x => .ok x
  | fuel + 1, k :: rest, x =>
    match keyField k with
    | none => .error .key
    | some n =>
      if n ≤ x.last then .error .order
      else
        match vdec rest with
        | none => .error .varint
        | some (v, rest') =>
          match takeField total n v rest' x with
          | .error e => .error e
          | .ok (x', rest'') => fieldLoop total fuel rest'' x'
  | 0, _ :: _, _ => .error .key

/-- `envelopeDecode(s)`: the envelope and the index of its payload in s, none when it is absent (41_packet_protocol.md
R132). -/
def envelopeDecode (l : List Byte) : Except EnvelopeFail (Envelope × Option Nat) :=
  match fieldLoop l.length l.length l fieldsStart with
  | .error e => .error e
  | .ok x =>
    match x.svc, x.mth with
    | some svc, some mth =>
      let payload :=
        match x.poff with
        | none => []
        | some poff => (l.drop poff).take x.plen
      .ok ({ type := x.t, channelId := x.ch, serviceId := svc, methodId := mth, payload := payload, status := x.st }, x.poff)
    | _, _ => .error .missing

/-! ### Sizes -/

/-- `encodedSize(e)` (41_packet_protocol.md R131). -/
def encodedSize (e : Envelope) : Nat := (envelopeEncode e).length

/-- `payloadPart(n)` (41_packet_protocol.md R133). -/
def payloadPart (n : Nat) : Nat := if n ≠ 0 then 1 + vlen n + n else 0

/-- `minSize(n)` (41_packet_protocol.md R133). -/
def minSize (n : Nat) : Nat := min (4 + payloadPart n) 0xFFFFFFFF

/-- `maxSize(n)` (41_packet_protocol.md R133). -/
def maxSize (n : Nat) : Nat := min (30 + payloadPart n) 0xFFFFFFFF

end Sys2Proof.Machine
end

