-- ==== Sys2Proof/Machine/PacketProtocol.lean ====
section
/-! DEFINITION. The Packet Protocol commands PENC, PDEC and PSIZE (41_packet_protocol.md R134 to R136). -/

namespace Sys2Proof.Machine

/-- The envelope that PENC's operands name (41_packet_protocol.md R134, 30_encoding.md R74). -/
def pktEnvelope (s : State) : Envelope :=
  { type := s.pktType, channelId := s.pktChannel, serviceId := s.pktService, methodId := s.pktMethod,
    payload := pktPayload s, status := s.pktStatus }

/-- PENC after the prologue (41_packet_protocol.md R134). -/
def pencBody (s : State) : Answer :=
  if ¬ InRange s.cfg s.pktPayPtr s.pktPayLen ∨ ¬ InRange s.cfg s.dstPtr s.dstCap then raise .badRange s
  else deliver (envelopeEncode (pktEnvelope s)) id s

/-- PENC: packet encode (41_packet_protocol.md R134). -/
def execPenc (s : State) : Answer := withPrologue pencBody s

/-- The register writes of a PDEC that ends in OK (41_packet_protocol.md R135). -/
def State.setEnvelope (s : State) (e : Envelope) (poff : Option Nat) : State :=
  { s with
    pktType := e.type, pktChannel := e.channelId, pktService := e.serviceId, pktMethod := e.methodId,
    pktStatus := e.status,
    pktPayPtr :=
      (match poff with
        | none => s.srcPtr
        | some n => BitVec.ofNat 32 (s.srcPtr.toNat + n)),
    pktPayLen := BitVec.ofNat 32 e.payload.length }

/-- PDEC after the prologue (41_packet_protocol.md R135). -/
def pdecBody (s : State) : Answer :=
  if ¬ InRange s.cfg s.srcPtr s.srcLen then raise .badRange s
  else
    match envelopeDecode (srcBytes s) with
    | .error _ => raise .malformedPacket s
    | .ok (e, poff) => finish ((s.setEnvelope e poff).setOutLen s.srcLen)

/-- PDEC: packet decode (41_packet_protocol.md R135). -/
def execPdec (s : State) : Answer := withPrologue pdecBody s

/-- PSIZE after the prologue (41_packet_protocol.md R136). -/
def psizeBody (s : State) : Answer :=
  finish ((s.setOutLen (BitVec.ofNat 32 (minSize s.pktPayLen.toNat))).setOutAux (BitVec.ofNat 32 (maxSize s.pktPayLen.toNat)))

/-- PSIZE: envelope size bounds (41_packet_protocol.md R136). -/
def execPsize (s : State) : Answer := withPrologue psizeBody s

end Sys2Proof.Machine
end

