-- ==== Sys2Proof/Machine/Bus.lean ====
section
/-! DEFINITION. How one input is served: the CMD write with its prologue, the other register accesses, the MEM accesses
and reset (10_state.md R21 to R25, 20_memory.md R51, R58, R59, 60_exceptions.md R182, 70_reset_and_hazards.md R200). -/

namespace Sys2Proof.Machine

/-- A host write of `w` to CMD, "whatever w is, legal or not" (60_exceptions.md R182): FAULTED, else BAD_COMMAND for an
illegal word (30_encoding.md R72), else the command, whose meaning opens with the same FAULT check. -/
def writeCmd (w : Word) (s : State) : Answer :=
  if s.fault then raise .faulted s
  else
    match decode w with
    | .error _ => raise .badCommand s
    | .ok i => exec i s

/-- A host write of `v` at an offset: CMD starts a command, a register stores, an offset that names no register has no
effect (10_state.md R22, R23, R25). -/
def writeOffset (off : Nat) (v : Word) (s : State) : Answer :=
  match regAt off with
  | none => .next s
  | some .cmd => writeCmd v s
  | some r => .next (writeReg s v r)

/-- One input, the block being idle. An access that the spec puts outside the model is refused by name
(93_implementation_defined.md U1, U2). -/
def serve (i : Input) (s : State) : Answer :=
  match i with
  | .regWrite width off v => if regAccessWf width off then writeOffset off v s else .refused .regAccessOutsideModel
  | .regRead width off =>
    if regAccessWf width off then .next (s.observe (.reg off (readOffset s off))) else .refused .regAccessOutsideModel
  | .memWrite addr b => if memAccessWf s.cfg addr then .next (memWrite s addr [b]) else .refused .memAccessOutsideModel
  | .memRead addr =>
    if memAccessWf s.cfg addr then .next (s.observe (.mem addr (readByte s addr))) else .refused .memAccessOutsideModel
  | .reset => .next (applyReset s)

/-- The inputs without the first reset among them; none when no reset is to come. -/
def takeReset : List Input → Option (List Input)
  | [] => none
  | .reset :: rest => some rest
  | i :: rest =>
    match takeReset rest with
    | none => none
    | some rest' => some (i :: rest')

/-- The block waits inside REL for the sink: it serves no host access, and "only reset leaves this state"
(42_channel_output.md R166, 93_implementation_defined.md U4, U7). The held accesses stay in line (logs 7, 8). -/
def stepWaiting (s : State) : Answer :=
  match takeReset s.inputs with
  | none => .fault .awaitingSink
  | some rest => .next (applyReset (s.setInputs rest))

/-- The block is idle: it serves the next input, and with none to come it stays as it is (70_reset_and_hazards.md R202). -/
def stepIdle (s : State) : Answer :=
  match s.inputs with
  | [] => .next s
  | i :: rest => serve i (s.setInputs rest)

/-- One step of the block and its surroundings, under a configuration that describes an FCPE (00_scope.md R6). -/
def stepBus (s : State) : Answer :=
  if s.cfg.wf then
    match s.waiting with
    | some _ => stepWaiting s
    | none => stepIdle s
  else .refused .badConfig

/-- The command word `w` written to CMD as the very next input, to a block that waits for nothing. -/
def nextCommand (w : Word) (s : State) : State :=
  (s.setWaiting none).setInputs (.regWrite 32 (regOffset .cmd) w :: s.inputs)

end Sys2Proof.Machine
end

