-- ==== Sys2Proof/Machine/Step.lean ====
section
/-! DEFINITION. One step, and the placing of a command word where the next step takes it. -/

namespace Sys2Proof.Machine

/-- One step: the next input of the host or the platform is served, a whole command being one step (20_memory.md R58). -/
def step (s : State) : Host.Outcome State Fault Refusal := stepBus s

/-- The state whose very next step is the host's write of that word to CMD: FCPE fetches nothing, "its commands come only
from CMD writes" (20_memory.md R65, log 10). -/
def State.withFetchWord (s : State) (nbits w : Nat) : State := nextCommand (tableWord nbits w) s

end Sys2Proof.Machine
end

