-- ==== Sys2Proof/Machine/HostSyntax.lean ====
section
/-! DEFINITION. Host programs: their lines, the one pseudo-instruction, their encoding as bus transactions, and their text
(30_encoding.md R89 to R91). -/

namespace Sys2Proof.Machine

/-! ### Lines to transactions -/

/-- The byte writes of a `mem` line, at rising addresses (30_encoding.md R91). -/
def memLineInputs : Nat → List Byte → List Input
  | _, [] => []
  | a, b :: bs => .memWrite a b :: memLineInputs (a + 1) bs

/-- `cmd <MNEMONIC>` "expands to `wr CMD, <word>`"; "no other pseudo-instruction exists" (30_encoding.md R90). -/
def expandLine : HostLine → HostLine
  | .cmd i => .wr .cmd (encode i)
  | l => l

/-- The transactions of an expanded line (30_encoding.md R91). -/
def plainLineInputs : HostLine → List Input
  | .wr r v => [.regWrite 32 (regOffset r) v]
  | .rd r => [.regRead 32 (regOffset r)]
  | .mem a bytes => memLineInputs a bytes
  | .cmd _ => []

/-- The transactions of a line (30_encoding.md R90, R91). -/
def lineInputs (l : HostLine) : List Input := plainLineInputs (expandLine l)

/-- The transactions of a program: "a program runs its lines in order and has no labels or branches" (30_encoding.md R89). -/
def programInputs (p : List HostLine) : List Input := p.flatMap lineInputs

/-- A program put in line after the inputs already there (log 10). -/
def State.withProgram (s : State) (p : List HostLine) : State := s.setInputs (s.inputs ++ programInputs p)

/-! ### Text to lines -/

/-- The names of the registers as the program text writes them (10_state.md R24). -/
def regNames : List (List Char × Reg) :=
  [("CMD".toList, .cmd), ("STATUS".toList, .status), ("SRC_PTR".toList, .srcPtr), ("SRC_LEN".toList, .srcLen),
   ("DST_PTR".toList, .dstPtr), ("DST_CAP".toList, .dstCap), ("OUT_LEN".toList, .outLen), ("OUT_AUX".toList, .outAux)]
  ++ [("FR_ADDR".toList, .frAddr), ("FR_CTRL".toList, .frCtrl), ("PKT_TYPE".toList, .pktType),
   ("PKT_CHANNEL".toList, .pktChannel), ("PKT_SERVICE".toList, .pktService), ("PKT_METHOD".toList, .pktMethod),
   ("PKT_STATUS".toList, .pktStatus), ("PKT_PAY_PTR".toList, .pktPayPtr), ("PKT_PAY_LEN".toList, .pktPayLen)]

/-- The mnemonics (30_encoding.md R71). -/
def mnemonics : List (List Char × Instr) :=
  [("FENC".toList, .fenc), ("FDEC".toList, .fdec), ("PENC".toList, .penc), ("PDEC".toList, .pdec),
   ("PSIZE".toList, .psize), ("ACQ".toList, .acq), ("REL".toList, .rel)]

/-- What a name stands for in a table of names. -/
def named {α : Type} (table : List (List Char × α)) (name : List Char) : Option α :=
  match table with
  | [] => none
  | (n, x) :: rest => if n = name then some x else named rest name

/-- The value of a digit in base 16; none for another character. -/
def digitValue (c : Char) : Option Nat :=
  let n := c.toNat
  if 48 ≤ n ∧ n ≤ 57 then some (n - 48)
  else if 65 ≤ n ∧ n ≤ 70 then some (n - 55)
  else if 97 ≤ n ∧ n ≤ 102 then some (n - 87)
  else none

/-- Digits in a base, most significant first, after the value `v` so far. -/
def digitsValue (base v : Nat) : List Char → Option Nat
  | [] => some v
  | c :: rest =>
    match digitValue c with
    | none => none
    | some d => if d < base then digitsValue base (v * base + d) rest else none

/-- "Values are decimal or `0x` hexadecimal" (30_encoding.md R89). -/
def parseValue : List Char → Option Nat
  | [] => none
  | '0' :: 'x' :: c :: rest => digitsValue 16 0 (c :: rest)
  | cs => digitsValue 10 0 cs

/-- A byte of a `mem` line: hexadecimal, with or without `0x`, as the programs of 95_test_vectors.md write it (log 12). -/
def parseByte : List Char → Option Byte
  | [] => none
  | '0' :: 'x' :: c :: rest =>
    match digitsValue 16 0 (c :: rest) with
    | some n => if n < 256 then some (BitVec.ofNat 8 n) else none
    | none => none
  | cs =>
    match digitsValue 16 0 cs with
    | some n => if n < 256 then some (BitVec.ofNat 8 n) else none
    | none => none

/-- The bytes of a `mem` line. -/
def parseBytes : List (List Char) → Option (List Byte)
  | [] => some []
  | w :: ws =>
    match parseByte w, parseBytes ws with
    | some b, some bs => some (b :: bs)
    | _, _ => none

/-- The line without its comment: "`;` starts a comment" (30_encoding.md R89). -/
def dropComment : List Char → List Char
  | [] => []
  | c :: rest => if c = ';' then [] else c :: dropComment rest

/-- The words of a line, parted by blanks, tabs and commas (log 12); `w` is the word so far, last character first. -/
def lineWords (w : List Char) : List Char → List (List Char)
  | [] => if w = [] then [] else [w.reverse]
  | c :: rest =>
    if c = ' ' ∨ c = ',' ∨ c = '\t' then (if w = [] then lineWords [] rest else w.reverse :: lineWords [] rest)
    else lineWords (c :: w) rest

/-- A line's words as a line: none for a text that is no line, `some []` for an empty or comment line (30_encoding.md R89). -/
def parseWords : List (List Char) → Option (List HostLine)
  | [] => some []
  | op :: args =>
    if op = "wr".toList then
      match args with
      | [r, v] =>
        match named regNames r, parseValue v with
        | some r, some v => if v < 2 ^ 32 then some [.wr r (BitVec.ofNat 32 v)] else none
        | _, _ => none
      | _ => none
    else if op = "rd".toList then
      match args with
      | [r] =>
        match named regNames r with
        | some r => some [.rd r]
        | none => none
      | _ => none
    else if op = "mem".toList then
      match args with
      | a :: bs =>
        match parseValue a, parseBytes bs with
        | some a, some bs => some [.mem a bs]
        | _, _ => none
      | [] => none
    else if op = "cmd".toList then
      match args with
      | [m] =>
        match named mnemonics m with
        | some i => some [.cmd i]
        | none => none
      | _ => none
    else none

/-- One line of program text (30_encoding.md R89). -/
def parseLine (text : String) : Option (List HostLine) := parseWords (lineWords [] (dropComment text.toList))

/-- A program text, line by line (30_encoding.md R89). -/
def parseProgram : List String → Option (List HostLine)
  | [] => some []
  | l :: ls =>
    match parseLine l, parseProgram ls with
    | some x, some xs => some (x ++ xs)
    | _, _ => none

end Sys2Proof.Machine
end

