-- ==== Sys2Proof/Safety.lean ====
section
/-! DEFINITION. What the claims mean by a safe state and a safe step: the parts of the invariant and the invariant itself. -/

namespace Sys2Proof.Machine

/-- The step from `s` goes on: it is neither the stuck REL (42_channel_output.md R166) nor an access or a configuration
that the spec puts outside the model. -/
def Runs (s : State) : Prop := ∃ t, step s = .next t

/-- Every input still to come is one the spec has a meaning for (93_implementation_defined.md U1, U2). -/
def HostKeepsToModel (s : State) : Prop := ∀ i ∈ s.inputs, i.wf s.cfg = true

/-- Every listed byte of MEM lies inside MEM (20_memory.md R50). -/
def MemInside (s : State) : Prop := ∀ x ∈ s.mem, x.1 < s.cfg.memSize

/-- FAULT is 1 exactly after a contract violation, when RESULT says so or says that a command was refused for it
(60_exceptions.md R180, R182, R185). -/
def FaultMatchesResult (s : State) : Prop :=
  s.fault = true ↔ s.result = .contractViolation ∨ s.result = .faulted

/-- A frame the Channel Output may send: frameDecode accepts it, its address is CH_ADDRESS, its control byte 0, its
payload fits the capacity, and the frame fits BUF_SIZE (42_channel_output.md R160, R161, R167). -/
def ChannelFrame (c : Config) (f : List Byte) : Prop :=
  f.length ≤ c.bufSize ∧
  ∃ p, p.length ≤ cap c ∧ frameDecode f = .ok { address := c.chAddress, control := 0#8, payload := p }

/-- A REL that waits holds the region, has violated nothing, and waits with a frame of the channel (42_channel_output.md
R163, R166). -/
def WaitingIsARel (s : State) : Prop :=
  ∀ f, s.waiting = some f → s.acquired = true ∧ s.fault = false ∧ ChannelFrame s.cfg f

/-- Every frame in the sink history is a frame of the channel (42_channel_output.md R167). -/
def HistorySound (s : State) : Prop := ∀ r ∈ s.sinkHistory, ChannelFrame s.cfg r.frame

/-- The invariant of the machine. -/
structure Inv (s : State) : Prop where
  /-- The configuration describes an FCPE (00_scope.md R6). -/
  config : s.cfg.wf = true
  /-- The memory is in canonical form. -/
  memory : Memory.wf s.mem
  /-- No byte outside MEM is held. -/
  inside : MemInside s
  /-- FAULT and RESULT agree. -/
  faulted : FaultMatchesResult s
  /-- Only a REL waits. -/
  waits : WaitingIsARel s
  /-- The sink has only been sent sound frames. -/
  history : HistorySound s

/-! ### Words the claims use -/

/-- The words that are no command: "OPC = 0x0, OPC in 0x8..0xF, or RSVD ≠ 0" (30_encoding.md R72). -/
def IllegalWord (w : Word) : Prop := opcField w = 0#4 ∨ 8 ≤ (opcField w).toNat ∨ rsvdField w ≠ 0#28

/-- "Canonical form, with every ESC followed by 0x5D or 0x5E" (40_frame_codec.md R105, R107). -/
def CanonicalEscapes (f : List Byte) : Prop :=
  ∀ i, f[i]? = some ESC → f[i + 1]? = some 0x5D#8 ∨ f[i + 1]? = some 0x5E#8

/-- A byte with bit `j` flipped (40_frame_codec.md R106). -/
def flipBit (b : Byte) (j : Nat) : Byte := b ^^^ (1#8 <<< j)

/-- An envelope as 41_packet_protocol.md has it: "payload: byte sequence of length < 2^32". -/
def Envelope.Legal (e : Envelope) : Prop := e.payload.length < 2 ^ 32

/-- Address `a` is one of the `n` bytes from `p` on. -/
def Within (p n a : Nat) : Prop := p ≤ a ∧ a < p + n

/-- The block is ready for the host and the host's next access is `i`, with `l` after it. -/
def NextInput (s : State) (i : Input) (l : List Input) : Prop :=
  s.cfg.wf = true ∧ s.waiting = none ∧ s.inputs = i :: l

/-- A reset is what the next step serves, and `l` is what is then still to come: the reset is the next input, or the block
waits for the sink and the reset is somewhere among the inputs (42_channel_output.md R166, 70_reset_and_hazards.md R200). -/
def ResetNext (s : State) (l : List Input) : Prop :=
  ∃ before after, s.inputs = before ++ .reset :: after ∧ l = before ++ after ∧ (s.waiting = none → before = [])

/-- The condition of CONTRACT_VIOLATION (60_exceptions.md R180). -/
def ContractBroken (i : Instr) (s : State) : Prop :=
  (i = .acq ∧ s.acquired = true) ∨ (i = .rel ∧ (s.acquired = false ∨ cap s.cfg < s.srcLen.toNat))

/-- The condition of BAD_RANGE: "any failing one gives BAD_RANGE" (60_exceptions.md R183). -/
def RangeBroken (i : Instr) (s : State) : Prop :=
  ((i = .fenc ∨ i = .fdec ∨ i = .pdec) ∧ ¬ InRange s.cfg s.srcPtr s.srcLen) ∨
  (i = .penc ∧ ¬ InRange s.cfg s.pktPayPtr s.pktPayLen) ∨
  ((i = .fenc ∨ i = .fdec ∨ i = .penc) ∧ ¬ InRange s.cfg s.dstPtr s.dstCap)

/-- The condition of CORRUPT_FRAME (FDEC) and of MALFORMED_PACKET (PDEC) (60_exceptions.md R180). -/
def ContentBroken (i : Instr) (s : State) : Prop :=
  (i = .fdec ∧ ∀ d, frameDecode (srcBytes s) ≠ .ok d) ∨ (i = .pdec ∧ ∀ x, envelopeDecode (srcBytes s) ≠ .ok x)

/-- `out` is what the command would store at DST_PTR (40_frame_codec.md R102, R103, 41_packet_protocol.md R134). -/
def OutputOf (i : Instr) (s : State) (out : List Byte) : Prop :=
  (i = .fenc ∧ out = frameEncode s.frAddr s.frCtrl (srcBytes s)) ∨
  (i = .fdec ∧ ∃ d, frameDecode (srcBytes s) = .ok d ∧ out = d.payload) ∨
  (i = .penc ∧ out = envelopeEncode (pktEnvelope s))

/-- The condition of BUFFER_TOO_SMALL: "the output does not fit in DST_CAP" (60_exceptions.md R180). -/
def DoesNotFit (i : Instr) (s : State) : Prop := ∃ out, OutputOf i s out ∧ s.dstCap.toNat < out.length

/-- The condition of SINK_ERROR: "the sink answered Err" (60_exceptions.md R180). -/
def SinkFails (i : Instr) (s : State) : Prop := i = .rel ∧ sinkAnswer (relFrame s) (sinkReply s) = some .err

/-- The sink gives this command no answer, so it ends in no result (42_channel_output.md R166). -/
def SinkSilent (i : Instr) (s : State) : Prop := i = .rel ∧ sinkReply s = .noAnswer

end Sys2Proof.Machine
end

