-- ==== Sys2Proof/Certificates/Slice0/Obligations.lean ====
section
/-! DEFINITION. The statements for the provers. -/

open Sys2Proof Sys2Proof.Machine

/-! ### Command words and the step -/

/-- Decoding the command word of a well-formed command gives the command back (30_encoding.md R70, R71). -/
def Obligations.DecodeOfEncodeIsTheCommand : Prop := ∀ i : Instr, i.wf = true → decode (encode i) = .ok i

/-- The opcode map: a word is a command's exactly when all its 32 bits are the command's word (30_encoding.md R71). -/
def Obligations.DecodeSelectsByTheFullWord : Prop :=
  (∀ (w : Word) (i : Instr), decode w = .ok i ↔ w = encode i) ∧
  encode .fenc = 0x00000001#32 ∧ encode .fdec = 0x00000002#32 ∧ encode .penc = 0x00000003#32 ∧
  encode .pdec = 0x00000004#32 ∧ encode .psize = 0x00000005#32 ∧ encode .acq = 0x00000006#32 ∧
  encode .rel = 0x00000007#32

/-- Words written out bit by bit from 30_encoding.md R70 and R71, legal and illegal, decode as they should. -/
def Obligations.WrittenOutWordsDecode : Prop :=
  decode 0b00000000000000000000000000000001#32 = .ok .fenc ∧
  decode 0b00000000000000000000000000000100#32 = .ok .pdec ∧
  decode 0b00000000000000000000000000000111#32 = .ok .rel ∧
  decode 0b00000000000000000000000000000000#32 = .error .opcZero ∧
  decode 0b00000000000000000000000000001000#32 = .error .opcUnassigned ∧
  decode 0b00000000000000000000000000010001#32 = .error .reservedBits ∧
  decode 0b10000000000000000000000000000001#32 = .error .reservedBits

/-- The illegal words are those R72 lists, and writing one to CMD sets RESULT to FAULTED or BAD_COMMAND and does nothing
else (30_encoding.md R72). -/
def Obligations.IllegalWordHasOneEffect : Prop :=
  (∀ w : Word, IllegalWord w ↔ ∀ i, decode w ≠ .ok i) ∧
  ∀ (s : State) (w : Word) (l : List Input), NextInput s (.regWrite 32 0x00 w) l → IllegalWord w →
    step s = .next { s with inputs := l, result := if s.fault then .faulted else .badCommand }

/-- A write to CMD of a word that decodes to a command is that command's meaning, once the write has been taken from the
inputs (10_state.md R25, 60_exceptions.md R182). -/
def Obligations.StepRunsTheDecodedCommand : Prop :=
  ∀ (s : State) (w : Word) (i : Instr) (l : List Input), NextInput s (.regWrite 32 0x00 w) l → decode w = .ok i →
    step s = exec i { s with inputs := l }

/-- A word placed by withFetchWord is the very next command, and nothing of the state is changed by placing it but that a
wait is over (log 10: how a command comes to the block is the model's choice). -/
def Obligations.PlacedWordRunsNext : Prop :=
  ∀ (s : State) (nbits w : Nat) (i : Instr), s.cfg.wf = true → decodeTableWord nbits w = some i →
    step (s.withFetchWord nbits w) = exec i { s with waiting := none }

/-! ### The frame codec -/

/-- The checksum's given values, and the frame check sequence: the checksum's four bytes, least significant first
(30_encoding.md R79, R80, 95_test_vectors.md 2.1). -/
def Obligations.FcsIsTheChecksumLeastByteFirst : Prop :=
  (∀ l : List Byte, ∃ b0 b1 b2 b3 : Byte, fcs l = [b0, b1, b2, b3] ∧
    (crc32 l).toNat = b0.toNat + 256 * b1.toNat + 256 ^ 2 * b2.toNat + 256 ^ 3 * b3.toNat) ∧
  fcs [0x7B#8, 0x00#8, 0x41#8] = [0xA5#8, 0x2F#8, 0x3E#8, 0xA6#8] ∧
  crc32 [0x31#8, 0x32#8, 0x33#8, 0x34#8, 0x35#8, 0x36#8, 0x37#8, 0x38#8, 0x39#8] = 0xCBF43926#32 ∧
  crc32 [] = 0x00000000#32 ∧ crc32 [0x7B#8, 0x00#8, 0x41#8] = 0xA63E2FA5#32 ∧
  crc32 [0x7B#8, 0x00#8, 0x7D#8] = 0x89515322#32

/-- Decoding an encoded frame gives back address, control and payload; the converse holds exactly for frames in canonical
form, and a lenient escape shows that it fails for others (40_frame_codec.md R105). -/
def Obligations.FrameRoundTrip : Prop :=
  (∀ (a c : Byte) (p : List Byte), frameDecode (frameEncode a c p) = .ok { address := a, control := c, payload := p }) ∧
  (∀ (f : List Byte) (d : Decoded), frameDecode f = .ok d →
    (frameEncode d.address d.control d.payload = f ↔ CanonicalEscapes f)) ∧
  frameDecode [0x7E#8, 0x7B#8, 0x00#8, 0x7D#8, 0x61#8, 0xA5#8, 0x2F#8, 0x3E#8, 0xA6#8, 0x7E#8] =
    .ok { address := 0x7B#8, control := 0x00#8, payload := [0x41#8] }

/-- The length of a frame, and when each bound is reached (40_frame_codec.md R104); and what frameDecode accepts is at
least 8 bytes longer than its payload (40_frame_codec.md R103: "SRC_LEN < 8 always gives CORRUPT_FRAME"). -/
def Obligations.FrameLengthBounds : Prop :=
  (∀ (a c : Byte) (p : List Byte),
    p.length + 8 ≤ (frameEncode a c p).length ∧ (frameEncode a c p).length ≤ 2 * p.length + 14 ∧
    ((∀ b ∈ frameRaw a c p, b ≠ FLAG ∧ b ≠ ESC) → (frameEncode a c p).length = p.length + 8) ∧
    ((∀ b ∈ frameRaw a c p, b = FLAG ∨ b = ESC) → (frameEncode a c p).length = 2 * p.length + 14)) ∧
  ∀ (f : List Byte) (d : Decoded), frameDecode f = .ok d → d.payload.length + 8 ≤ f.length

/-- In an encoded frame FLAG stands only at the two ends, and ESC only before 0x5D or 0x5E (40_frame_codec.md R107). -/
def Obligations.FlagOnlyDelimitsAFrame : Prop :=
  ∀ (a c : Byte) (p : List Byte),
    (∀ i, (frameEncode a c p)[i]? = some FLAG ↔ i = 0 ∨ i + 1 = (frameEncode a c p).length) ∧
    CanonicalEscapes (frameEncode a c p)

/-- Every single-bit flip of an encoded frame that hits a delimiter, makes a FLAG inside the body, or keeps the escape
structure is a decode failure, for the reason the spec names (40_frame_codec.md R106; a flip that makes or unmakes an escape is
not claimed, 93_implementation_defined.md U6). -/
def Obligations.SingleBitFlipIsDetected : Prop :=
  ∀ (a c : Byte) (p : List Byte) (i j : Nat) (b : Byte), j < 8 → (frameEncode a c p)[i]? = some b →
    let g := (frameEncode a c p).set i (flipBit b j)
    ((i = 0 ∨ i + 1 = (frameEncode a c p).length) → frameDecode g = .error .delimiter) ∧
    (0 < i → i + 1 < (frameEncode a c p).length → flipBit b j = FLAG → frameDecode g = .error .flagInBody) ∧
    (0 < i → i + 1 < (frameEncode a c p).length → b ≠ ESC → flipBit b j ≠ FLAG → flipBit b j ≠ ESC →
      frameDecode g = .error .checksum)

/-! ### The envelope -/

/-- A varint: its bytes by the recursion of R84, its length, the continuation bits, and the spec's examples
(30_encoding.md R84). -/
def Obligations.VarintEncoding : Prop :=
  (∀ v : Nat, v < 0x80 → venc v = [BitVec.ofNat 8 v]) ∧
  (∀ v : Nat, 0x80 ≤ v → v < 2 ^ 32 → venc v = BitVec.ofNat 8 (v % 0x80 + 0x80) :: venc (v / 0x80)) ∧
  (∀ v : Nat, v < 2 ^ 32 → (venc v).length = vlen v ∧ 1 ≤ (venc v).length ∧ (venc v).length ≤ 5 ∧
    ∀ (i : Nat) (b : Byte), (venc v)[i]? = some b → (b.getLsbD 7 = true ↔ i + 1 < (venc v).length)) ∧
  venc 0 = [0x00#8] ∧ venc 127 = [0x7F#8] ∧ venc 128 = [0x80#8, 0x01#8] ∧
  venc 0xFFFFFFFF = [0xFF#8, 0xFF#8, 0xFF#8, 0xFF#8, 0x0F#8]

/-- vdec accepts exactly what venc produces, for every u32 and nothing else, and stops at the varint's end
(30_encoding.md R85). -/
def Obligations.VarintDecodingIsCanonical : Prop :=
  ∀ (l rest : List Byte) (v : Nat), vdec l = some (v, rest) ↔ v < 2 ^ 32 ∧ l = venc v ++ rest

/-- Envelope encoding is a bijection between envelopes and accepted byte strings (41_packet_protocol.md R137). -/
def Obligations.EnvelopeEncodingIsABijection : Prop :=
  (∀ e : Envelope, e.Legal → ∃ poff, envelopeDecode (envelopeEncode e) = .ok (e, poff)) ∧
  (∀ (l : List Byte) (e : Envelope) (poff : Option Nat), envelopeDecode l = .ok (e, poff) → e.Legal ∧ envelopeEncode e = l)

/-- The index that envelopeDecode answers is where the payload starts in the source, and it answers none exactly when
there is no payload (41_packet_protocol.md R132). -/
def Obligations.PayloadIndexPointsAtThePayload : Prop :=
  ∀ (l : List Byte) (e : Envelope) (poff : Option Nat), envelopeDecode l = .ok (e, poff) →
    (poff = none ↔ e.payload = []) ∧
    ∀ n, poff = some n → n + e.payload.length ≤ l.length ∧ (l.drop n).take e.payload.length = e.payload

/-- The exact size of an encoded envelope (41_packet_protocol.md R131). -/
def Obligations.EncodedSizeFormula : Prop :=
  ∀ e : Envelope, e.Legal →
    encodedSize e = (envelopeEncode e).length ∧
    encodedSize e =
      (if e.type ≠ 0#32 then 1 + vlen e.type.toNat else 0) + (if e.channelId ≠ 0#32 then 1 + vlen e.channelId.toNat else 0)
      + 1 + vlen e.serviceId.toNat + 1 + vlen e.methodId.toNat
      + (if e.payload.length ≠ 0 then 1 + vlen e.payload.length + e.payload.length else 0)
      + (if e.status ≠ 0#32 then 1 + vlen e.status.toNat else 0)

/-- The size bounds and that they bound every envelope with that payload length, wherever they do not saturate
(41_packet_protocol.md R133). -/
def Obligations.SizeBoundsBoundTheSize : Prop :=
  (∀ n, payloadPart n = (if n ≠ 0 then 1 + vlen n + n else 0) ∧ minSize n = min (4 + payloadPart n) 0xFFFFFFFF ∧
    maxSize n = min (30 + payloadPart n) 0xFFFFFFFF) ∧
  ∀ e : Envelope, e.Legal →
    minSize e.payload.length ≤ encodedSize e ∧
    (30 + payloadPart e.payload.length ≤ 0xFFFFFFFF → encodedSize e ≤ maxSize e.payload.length)

/-- An envelope without a payload needs at most 30 bytes, and the Channel Output takes every such envelope exactly when
CAP ≥ 30, that is BUF_SIZE ≥ 74 (70_reset_and_hazards.md R208). -/
def Obligations.ErrorEnvelopeFitsFromThirty : Prop :=
  (∀ e : Envelope, e.payload = [] → encodedSize e ≤ 30) ∧
  ∀ c : Config, ((∀ e : Envelope, e.payload = [] → encodedSize e ≤ cap c) ↔ 30 ≤ cap c) ∧ (30 ≤ cap c ↔ 74 ≤ c.bufSize)

/-! ### What each command does when it completes -/

/-- FENC on readable regions and a frame that fits: MEM holds the frame at DST_PTR, OUT_LEN its length, RESULT OK; no
other register, flag or byte changes. The regions may overlap: the frame is that of MEM before the command
(40_frame_codec.md R102, 20_memory.md R53 to R55). -/
def Obligations.FencStoresTheFrame : Prop :=
  ∀ s : State, s.fault = false → InRange s.cfg s.srcPtr s.srcLen → InRange s.cfg s.dstPtr s.dstCap →
    let f := frameEncode s.frAddr s.frCtrl (memRead s s.srcPtr.toNat s.srcLen.toNat)
    f.length ≤ s.dstCap.toNat →
    ∃ t, exec .fenc s = .next t ∧
      t = { s with mem := t.mem, outLen := BitVec.ofNat 32 f.length, result := .ok } ∧ t.outLen.toNat = f.length ∧
      memRead t s.dstPtr.toNat f.length = f ∧
      ∀ a, ¬ Within s.dstPtr.toNat f.length a → readByte t a = readByte s a

/-- FDEC on a sound frame whose payload fits: MEM holds the payload at DST_PTR, FR_ADDR and FR_CTRL the frame's address and
control, OUT_LEN the payload's length, RESULT OK; nothing else changes (40_frame_codec.md R103, 20_memory.md R53 to R55). -/
def Obligations.FdecStoresThePayload : Prop :=
  ∀ (s : State) (d : Decoded), s.fault = false → InRange s.cfg s.srcPtr s.srcLen → InRange s.cfg s.dstPtr s.dstCap →
    frameDecode (memRead s s.srcPtr.toNat s.srcLen.toNat) = .ok d → d.payload.length ≤ s.dstCap.toNat →
    ∃ t, exec .fdec s = .next t ∧
      t = { s with mem := t.mem, frAddr := d.address, frCtrl := d.control,
                   outLen := BitVec.ofNat 32 d.payload.length, result := .ok } ∧ t.outLen.toNat = d.payload.length ∧
      memRead t s.dstPtr.toNat d.payload.length = d.payload ∧
      ∀ a, ¬ Within s.dstPtr.toNat d.payload.length a → readByte t a = readByte s a

/-- PENC on readable regions and an envelope that fits: MEM holds the envelope of the PKT_ registers and the payload at
DST_PTR, OUT_LEN its length, RESULT OK; nothing else changes (41_packet_protocol.md R134, 20_memory.md R53 to R55). -/
def Obligations.PencStoresTheEnvelope : Prop :=
  ∀ s : State, s.fault = false → InRange s.cfg s.pktPayPtr s.pktPayLen → InRange s.cfg s.dstPtr s.dstCap →
    let e : Envelope := { type := s.pktType, channelId := s.pktChannel, serviceId := s.pktService,
                          methodId := s.pktMethod, payload := memRead s s.pktPayPtr.toNat s.pktPayLen.toNat,
                          status := s.pktStatus }
    (envelopeEncode e).length ≤ s.dstCap.toNat →
    ∃ t, exec .penc s = .next t ∧
      t = { s with mem := t.mem, outLen := BitVec.ofNat 32 (envelopeEncode e).length, result := .ok } ∧
      t.outLen.toNat = (envelopeEncode e).length ∧
      memRead t s.dstPtr.toNat (envelopeEncode e).length = envelopeEncode e ∧
      ∀ a, ¬ Within s.dstPtr.toNat (envelopeEncode e).length a → readByte t a = readByte s a

/-- PDEC on an envelope: the PKT_ registers hold its fields, PKT_PAY_PTR and PKT_PAY_LEN name its payload where it stands
in MEM (SRC_PTR and 0 when it is absent), OUT_LEN is SRC_LEN, RESULT OK; nothing else changes, no byte of MEM among it
(41_packet_protocol.md R135, 10_state.md R40, R41). -/
def Obligations.PdecPointsAtThePayload : Prop :=
  ∀ (s : State) (e : Envelope) (poff : Option Nat), s.cfg.wf = true → s.fault = false →
    InRange s.cfg s.srcPtr s.srcLen →
    envelopeDecode (memRead s s.srcPtr.toNat s.srcLen.toNat) = .ok (e, poff) →
    ∃ t, exec .pdec s = .next t ∧
      t = { s with pktType := e.type, pktChannel := e.channelId, pktService := e.serviceId, pktMethod := e.methodId,
                   pktStatus := e.status, pktPayPtr := t.pktPayPtr, pktPayLen := t.pktPayLen, outLen := s.srcLen,
                   result := .ok } ∧
      t.pktPayLen.toNat = e.payload.length ∧
      (∀ n, poff = some n → t.pktPayPtr.toNat = s.srcPtr.toNat + n) ∧ (poff = none → t.pktPayPtr = s.srcPtr) ∧
      memRead t t.pktPayPtr.toNat t.pktPayLen.toNat = e.payload

/-- PSIZE writes the two bounds, and the spec's corner cases (41_packet_protocol.md R136). -/
def Obligations.PsizeWritesTheBounds : Prop :=
  (∀ s : State, s.fault = false → ∃ t, exec .psize s = .next t ∧
    t = { s with outLen := t.outLen, outAux := t.outAux, result := .ok } ∧
    t.outLen.toNat = minSize s.pktPayLen.toNat ∧ t.outAux.toNat = maxSize s.pktPayLen.toNat) ∧
  (minSize 0 = 4 ∧ maxSize 0 = 30) ∧ (minSize 1 = 7 ∧ maxSize 1 = 33) ∧ (minSize 127 = 133 ∧ maxSize 127 = 159) ∧
  (minSize 128 = 135 ∧ maxSize 128 = 161) ∧ (minSize 0xFFFFFFFF = 0xFFFFFFFF ∧ maxSize 0xFFFFFFFF = 0xFFFFFFFF)

/-- ACQ: with no region outstanding it hands the region out, whatever CAP is; with one outstanding it is a contract
violation and the region stays acquired; MEM is untouched; and the spec's example (42_channel_output.md R162). -/
def Obligations.AcqHandsOutTheRegion : Prop :=
  (∀ s : State, s.cfg.wf = true → s.fault = false → s.acquired = false →
    ∃ t, exec .acq s = .next t ∧
      t = { s with acquired := true, outAux := t.outAux, outLen := t.outLen, result := .ok } ∧
      t.outAux.toNat = s.cfg.chBufBase ∧ t.outLen.toNat = cap s.cfg) ∧
  (∀ s : State, s.fault = false → s.acquired = true →
    exec .acq s = .next { s with fault := true, result := .contractViolation }) ∧
  (∀ (c : Config) (p : Nat), c.chBufBase = 0x300 → c.bufSize = 64 →
    exec .acq (State.resetWith c p) =
      .next { State.resetWith c p with acquired := true, outAux := 0x300#32, outLen := 25#32, result := .ok })

/-- REL past its checks and with an answer: one transaction with the frame of the used bytes joins the history, the region
is released, OUT_LEN is the frame's length, and the answer decides OK or SINK_ERROR; fewer bytes written than sent count as
an error; MEM and everything else is untouched (42_channel_output.md R160, R163, R165). The model's choices in it: the
answer is taken from sinkReplies first (log 5), and a sink that reports more bytes than it was sent counts as Ok (log 6). -/
def Obligations.RelSendsTheFrameAndReleases : Prop :=
  ∀ (s : State) (r : SinkReply), s.cfg.wf = true → s.fault = false → s.acquired = true → s.srcLen.toNat ≤ cap s.cfg →
    sinkReply s = r → r ≠ .noAnswer →
    let f := frameEncode s.cfg.chAddress 0x00#8 (memRead s s.cfg.chBufBase s.srcLen.toNat)
    let good := ∃ n, r = .written n ∧ f.length ≤ n
    ∃ (t : State) (a : SinkAnswer), exec .rel s = .next t ∧
      t = { s with sinkHistory := s.sinkHistory ++ [{ frame := f, answer := a }], acquired := false,
                   outLen := BitVec.ofNat 32 f.length, result := t.result,
                   sinkReplies := s.sinkReplies.tail, sinkCount := s.sinkCount + 1 } ∧
      t.outLen.toNat = f.length ∧ (good → a = .ok ∧ t.result = .ok) ∧ (¬ good → a = .err ∧ t.result = .sinkError)

/-- REL with no region outstanding or a used length above CAP is a contract violation: FAULT and RESULT change, nothing
else, and the sink is sent nothing (42_channel_output.md R163). -/
def Obligations.RelOutOfContractSendsNothing : Prop :=
  ∀ s : State, s.fault = false → (s.acquired = false ∨ cap s.cfg < s.srcLen.toNat) →
    exec .rel s = .next { s with fault := true, result := .contractViolation }

/-- REL whose sink never answers waits: no result, no release, nothing recorded (42_channel_output.md R166; the waiting
state is log 7, and that the draw advances sinkReplies and sinkCount is log 5). -/
def Obligations.RelWithoutAnAnswerWaits : Prop :=
  ∀ s : State, s.fault = false → s.acquired = true → s.srcLen.toNat ≤ cap s.cfg → sinkReply s = .noAnswer →
    exec .rel s = .next { s with waiting := some (frameEncode s.cfg.chAddress 0x00#8 (usedBytes s)),
                                 sinkReplies := s.sinkReplies.tail, sinkCount := s.sinkCount + 1 }

/-- A block that waits for the sink serves no access: without a reset to come it is stuck, and a reset abandons the REL
and leaves the held accesses in line (42_channel_output.md R166, 70_reset_and_hazards.md R200; which held accesses stay is the
model's choice, log 8). -/
def Obligations.WaitingBlockIsStuckUntilReset : Prop :=
  ∀ (s : State) (f : List Byte), s.cfg.wf = true → s.waiting = some f →
    (.reset ∉ s.inputs → step s = .fault .awaitingSink) ∧
    (∀ l1 l2, s.inputs = l1 ++ .reset :: l2 → .reset ∉ l1 → step s = .next (applyReset { s with inputs := l1 ++ l2 }))

/-! ### When a command does not complete -/

/-- While FAULT = 1 a write to CMD, whatever the word, changes RESULT to FAULTED and nothing else (60_exceptions.md R182). -/
def Obligations.FaultedBlockRunsNothing : Prop :=
  (∀ (s : State) (w : Word) (l : List Input), NextInput s (.regWrite 32 0x00 w) l → s.fault = true →
    step s = .next { s with inputs := l, result := .faulted }) ∧
  ∀ (i : Instr) (s : State), s.fault = true → exec i s = .next { s with result := .faulted }

/-- When a region is in range; and a region that leaves MEM gives BAD_RANGE and nothing else, whatever the input holds; for
an output region the whole declared capacity counts (20_memory.md R53). -/
def Obligations.BadRangeChangesNothingElse : Prop :=
  (∀ (c : Config) (ptr n : Word), InRange c ptr n ↔ ptr.toNat + n.toNat ≤ c.memSize) ∧
  (∀ (c : Config) (ptr : Word), InRange c ptr 0#32 ↔ ptr.toNat ≤ c.memSize) ∧
  ∀ (i : Instr) (s : State), s.fault = false → RangeBroken i s → exec i s = .next { s with result := .badRange }

/-- Content that does not decode gives CORRUPT_FRAME or MALFORMED_PACKET and nothing else (40_frame_codec.md R103,
41_packet_protocol.md R135). -/
def Obligations.BadContentChangesNothingElse : Prop :=
  (∀ s : State, s.fault = false → ¬ RangeBroken .fdec s → ContentBroken .fdec s →
    exec .fdec s = .next { s with result := .corruptFrame }) ∧
  ∀ s : State, s.fault = false → ¬ RangeBroken .pdec s → ContentBroken .pdec s →
    exec .pdec s = .next { s with result := .malformedPacket }

/-- An output that does not fit gives BUFFER_TOO_SMALL, OUT_LEN the length needed (saturated at 0xFFFFFFFF) and nothing
else, MEM included; DST_CAP 0 never takes a frame (40_frame_codec.md R102, R103, 41_packet_protocol.md R134). -/
def Obligations.TooSmallReportsTheLengthNeeded : Prop :=
  (∀ (i : Instr) (s : State) (out : List Byte), s.fault = false → ¬ RangeBroken i s → OutputOf i s out →
    s.dstCap.toNat < out.length →
    exec i s = .next { s with outLen := BitVec.ofNat 32 (min out.length 0xFFFFFFFF), result := .bufferTooSmall }) ∧
  (∀ s : State, s.dstCap = 0#32 → DoesNotFit .fenc s)

/-- The table of result codes: the number of each, and of each result other than OK which command and which cause give it
and exactly what has been written (60_exceptions.md R180; that SINK_ERROR also advances sinkReplies and sinkCount is the
model's choice, log 5). -/
def Obligations.ResultCodesWriteWhatTheirTableSays : Prop :=
  (resultCode .ok = 0#4 ∧ resultCode .corruptFrame = 1#4 ∧ resultCode .bufferTooSmall = 2#4 ∧
    resultCode .malformedPacket = 3#4 ∧ resultCode .contractViolation = 4#4 ∧ resultCode .badCommand = 5#4 ∧
    resultCode .badRange = 6#4 ∧ resultCode .sinkError = 7#4 ∧ resultCode .faulted = 8#4 ∧
    ∀ r, (resultCode r).toNat ≤ 8) ∧
  ∀ (w : Word) (s t : State), writeCmd w s = .next t → (∀ i, decode w = .ok i → ¬ SinkSilent i s) →
    (t.result = .ok → ∃ i, decode w = .ok i ∧ s.fault = false) ∧
    (t.result = .corruptFrame → decode w = .ok .fdec ∧ ContentBroken .fdec s ∧ t = { s with result := .corruptFrame }) ∧
    (t.result = .bufferTooSmall → ∃ i out, decode w = .ok i ∧ OutputOf i s out ∧ s.dstCap.toNat < out.length ∧
      t = { s with outLen := BitVec.ofNat 32 (min out.length 0xFFFFFFFF), result := .bufferTooSmall }) ∧
    (t.result = .malformedPacket → decode w = .ok .pdec ∧ ContentBroken .pdec s ∧
      t = { s with result := .malformedPacket }) ∧
    (t.result = .contractViolation → (∃ i, decode w = .ok i ∧ ContractBroken i s) ∧
      t = { s with fault := true, result := .contractViolation }) ∧
    (t.result = .badCommand → IllegalWord w ∧ t = { s with result := .badCommand }) ∧
    (t.result = .badRange → (∃ i, decode w = .ok i ∧ RangeBroken i s) ∧ t = { s with result := .badRange }) ∧
    (t.result = .sinkError → decode w = .ok .rel ∧ SinkFails .rel s ∧
      t = { s with acquired := false, outLen := BitVec.ofNat 32 (relFrame s).length, result := .sinkError,
                   sinkHistory := s.sinkHistory ++ [{ frame := relFrame s, answer := .err }],
                   sinkReplies := s.sinkReplies.tail, sinkCount := s.sinkCount + 1 }) ∧
    (t.result = .faulted → s.fault = true ∧ t = { s with result := .faulted })

/-- A command reports the first result of the priority list that applies (60_exceptions.md R183). -/
def Obligations.FirstApplicableResultIsReported : Prop :=
  ∀ (w : Word) (s t : State), writeCmd w s = .next t →
    (s.fault = true → t.result = .faulted) ∧
    (s.fault = false → IllegalWord w → t.result = .badCommand) ∧
    ∀ i, s.fault = false → decode w = .ok i →
      (ContractBroken i s → t.result = .contractViolation) ∧
      (¬ ContractBroken i s → RangeBroken i s → t.result = .badRange) ∧
      (¬ ContractBroken i s → ¬ RangeBroken i s → ContentBroken i s →
        (i = .fdec → t.result = .corruptFrame) ∧ (i = .pdec → t.result = .malformedPacket)) ∧
      (¬ ContractBroken i s → ¬ RangeBroken i s → ¬ ContentBroken i s → DoesNotFit i s → t.result = .bufferTooSmall) ∧
      (¬ ContractBroken i s → ¬ RangeBroken i s → ¬ ContentBroken i s → ¬ DoesNotFit i s → SinkFails i s →
        t.result = .sinkError) ∧
      (¬ ContractBroken i s → ¬ RangeBroken i s → ¬ ContentBroken i s → ¬ DoesNotFit i s → ¬ SinkFails i s →
        ¬ SinkSilent i s → t.result = .ok)

/-! ### Frames and rules of the whole machine -/

/-- The storing commands, in every outcome: only OUT_LEN, RESULT and MEM may change (FDEC: FR_ADDR and FR_CTRL too), and
every byte of MEM outside the output stored at DST_PTR reads as before (10_state.md R48, 20_memory.md R52, R55). -/
def Obligations.StoringCommandsChangeOnlyTheirOutputs : Prop :=
  ∀ s t : State,
    (exec .fenc s = .next t → t = { s with outLen := t.outLen, result := t.result, mem := t.mem } ∧
      ∀ a, ¬ Within s.dstPtr.toNat (frameEncode s.frAddr s.frCtrl (srcBytes s)).length a → readByte t a = readByte s a) ∧
    (exec .penc s = .next t → t = { s with outLen := t.outLen, result := t.result, mem := t.mem } ∧
      ∀ a, ¬ Within s.dstPtr.toNat (envelopeEncode (pktEnvelope s)).length a → readByte t a = readByte s a) ∧
    (exec .fdec s = .next t →
      t = { s with frAddr := t.frAddr, frCtrl := t.frCtrl, outLen := t.outLen, result := t.result, mem := t.mem } ∧
      (t.result ≠ .ok → t.frAddr = s.frAddr ∧ t.frCtrl = s.frCtrl) ∧
      (∀ d, frameDecode (srcBytes s) = .ok d →
        ∀ a, ¬ Within s.dstPtr.toNat d.payload.length a → readByte t a = readByte s a) ∧
      ((∀ d, frameDecode (srcBytes s) ≠ .ok d) → ∀ a, readByte t a = readByte s a))

/-- The commands that store nothing, in every outcome: all of MEM reads as before, and only the registers and flags their
rules name may change (10_state.md R48, 20_memory.md R52). -/
def Obligations.OtherCommandsStoreNothing : Prop :=
  ∀ s t : State,
    (exec .pdec s = .next t →
      t = { s with pktType := t.pktType, pktChannel := t.pktChannel, pktService := t.pktService,
                   pktMethod := t.pktMethod, pktStatus := t.pktStatus, pktPayPtr := t.pktPayPtr,
                   pktPayLen := t.pktPayLen, outLen := t.outLen, result := t.result } ∧
      ∀ a, readByte t a = readByte s a) ∧
    (exec .psize s = .next t → t = { s with outLen := t.outLen, outAux := t.outAux, result := t.result } ∧
      ∀ a, readByte t a = readByte s a) ∧
    (exec .acq s = .next t →
      t = { s with outLen := t.outLen, outAux := t.outAux, acquired := t.acquired, fault := t.fault,
                   result := t.result } ∧ ∀ a, readByte t a = readByte s a) ∧
    (exec .rel s = .next t →
      t = { s with outLen := t.outLen, acquired := t.acquired, fault := t.fault, result := t.result,
                   sinkHistory := t.sinkHistory, waiting := t.waiting, sinkReplies := t.sinkReplies,
                   sinkCount := t.sinkCount } ∧ ∀ a, readByte t a = readByte s a)

/-- A command that does not end in OK writes no byte of MEM; one that does writes only the OUT_LEN bytes from DST_PTR on,
so the rest of the output region is left unchanged (20_memory.md R55). -/
def Obligations.OnlyOkWritesMem : Prop :=
  ∀ (i : Instr) (s t : State), exec i s = .next t →
    (t.result ≠ .ok → t.mem = s.mem) ∧
    (∀ a, ¬ Within s.dstPtr.toNat t.outLen.toNat a → readByte t a = readByte s a)

/-- FENC and FDEC answer from their operands alone: two states that agree on the operand registers, MEM, FAULT and the
configuration get the same result and outputs, whatever the other registers and ACQUIRED hold (10_state.md R48,
42_channel_output.md R164). -/
def Obligations.FrameCommandsReadOnlyTheirOperands : Prop :=
  ∀ (i : Instr) (s s' t : State), i = .fenc ∨ i = .fdec →
    s'.cfg = s.cfg → s'.powerOn = s.powerOn → s'.mem = s.mem → s'.fault = s.fault →
    s'.srcPtr = s.srcPtr → s'.srcLen = s.srcLen → s'.dstPtr = s.dstPtr → s'.dstCap = s.dstCap →
    (i = .fenc → s'.frAddr = s.frAddr ∧ s'.frCtrl = s.frCtrl) → exec i s = .next t →
    ∃ t', exec i s' = .next t' ∧ t'.result = t.result ∧ t'.mem = t.mem ∧
      (t.result = .ok ∨ t.result = .bufferTooSmall → t'.outLen = t.outLen) ∧
      (i = .fdec → t.result = .ok → t'.frAddr = t.frAddr ∧ t'.frCtrl = t.frCtrl)

/-- PENC, PDEC and PSIZE answer from their operands alone (10_state.md R48, 42_channel_output.md R164). -/
def Obligations.PacketCommandsReadOnlyTheirOperands : Prop :=
  ∀ (i : Instr) (s s' t : State), i = .penc ∨ i = .pdec ∨ i = .psize →
    s'.fault = s.fault →
    (i ≠ .psize → s'.cfg = s.cfg ∧ s'.powerOn = s.powerOn ∧ s'.mem = s.mem) →
    (i = .penc → s'.pktType = s.pktType ∧ s'.pktChannel = s.pktChannel ∧ s'.pktService = s.pktService ∧
      s'.pktMethod = s.pktMethod ∧ s'.pktStatus = s.pktStatus ∧ s'.pktPayPtr = s.pktPayPtr ∧
      s'.dstPtr = s.dstPtr ∧ s'.dstCap = s.dstCap) →
    (i ≠ .pdec → s'.pktPayLen = s.pktPayLen) → (i = .pdec → s'.srcPtr = s.srcPtr ∧ s'.srcLen = s.srcLen) →
    exec i s = .next t →
    ∃ t', exec i s' = .next t' ∧ t'.result = t.result ∧ (i = .penc → t'.mem = t.mem) ∧
      (t.result = .ok ∨ t.result = .bufferTooSmall → t'.outLen = t.outLen) ∧
      (i = .psize → t.result = .ok → t'.outAux = t.outAux) ∧
      (i = .pdec → t.result = .ok →
        t'.pktType = t.pktType ∧ t'.pktChannel = t.pktChannel ∧ t'.pktService = t.pktService ∧
        t'.pktMethod = t.pktMethod ∧ t'.pktStatus = t.pktStatus ∧ t'.pktPayPtr = t.pktPayPtr ∧
        t'.pktPayLen = t.pktPayLen)

/-- A REL that passes its checks issues exactly one transaction, holding one frame that frameDecode accepts; no other
command, no violation and no faulted command issues one (42_channel_output.md R167). The count is the model's own field
(log 5), and a transaction without an answer waits and joins no history (log 7). -/
def Obligations.OneTransactionPerRel : Prop :=
  (∀ s t : State, s.fault = false → ¬ ContractBroken .rel s → exec .rel s = .next t →
    ∃ f, frameDecode f = .ok { address := s.cfg.chAddress, control := 0x00#8, payload := usedBytes s } ∧
      t.sinkCount = s.sinkCount + 1 ∧
      ((∃ a, t.sinkHistory = s.sinkHistory ++ [{ frame := f, answer := a }]) ∨
        (t.sinkHistory = s.sinkHistory ∧ t.waiting = some f))) ∧
  ∀ (i : Instr) (s t : State), (i ≠ .rel ∨ s.fault = true ∨ ContractBroken .rel s) → exec i s = .next t →
    t.sinkHistory = s.sinkHistory ∧ t.sinkCount = s.sinkCount ∧ t.waiting = s.waiting

/-- CAP is the largest payload length that always fits, and every frame REL may send fits in BUF_SIZE
(42_channel_output.md R161). -/
def Obligations.CapacityIsTheLargestThatFits : Prop :=
  (∀ c : Config, c.wf = true → ∀ n, n ≤ cap c ↔ 2 * n + 14 ≤ c.bufSize) ∧
  (∀ s : State, s.cfg.wf = true → s.srcLen.toNat ≤ cap s.cfg → (relFrame s).length ≤ s.cfg.bufSize) ∧
  (∀ c : Config, c.bufSize = 64 → cap c = 25)

/-- FAULT is 0 at reset and reads as STATUS[9]; a step sets it exactly when a command ends in CONTRACT_VIOLATION, and
clears it only by a reset (10_state.md R43). -/
def Obligations.FaultIsStickyUntilReset : Prop :=
  (∀ c p, (State.resetWith c p).fault = false) ∧ (∀ s : State, (statusWord s).getLsbD 9 = s.fault) ∧
  (∀ (w : Word) (s t : State), writeCmd w s = .next t → s.fault = false →
    (t.fault = true ↔ t.result = .contractViolation ∧ ∃ i, decode w = .ok i ∧ ContractBroken i s)) ∧
  (∀ s t : State, step s = .next t → s.fault = false → t.fault = true →
    ∃ w l, s.inputs = .regWrite 32 0x00 w :: l ∧ writeCmd w { s with inputs := l } = .next t) ∧
  ∀ s t : State, step s = .next t → s.fault = true → t.fault = false →
    ∃ l, ResetNext s l ∧ t = applyReset { s with inputs := l }

/-- ACQUIRED is 0 at reset and reads as STATUS[8]; an ACQ that ends in OK sets it, and a REL past its checks that the sink
has answered clears it; a step changes it by these two or by a reset, and by nothing else (10_state.md R42). -/
def Obligations.AcquiredChangesOnlyByAcqRelReset : Prop :=
  (∀ c p, (State.resetWith c p).acquired = false) ∧ (∀ s : State, (statusWord s).getLsbD 8 = s.acquired) ∧
  (∀ s t : State, exec .acq s = .next t → t.result = .ok → t.acquired = true) ∧
  (∀ s t : State, s.fault = false → ¬ ContractBroken .rel s → ¬ SinkSilent .rel s → exec .rel s = .next t →
    t.acquired = false) ∧
  ∀ s t : State, step s = .next t → t.acquired ≠ s.acquired →
    (∃ l, s.inputs = .regWrite 32 0x00 (encode .acq) :: l ∧ exec .acq { s with inputs := l } = .next t ∧
      t.acquired = true ∧ t.result = .ok) ∨
    (∃ l, s.inputs = .regWrite 32 0x00 (encode .rel) :: l ∧ exec .rel { s with inputs := l } = .next t ∧
      t.acquired = false ∧ (t.result = .ok ∨ t.result = .sinkError)) ∨
    (∃ l, ResetNext s l ∧ t = applyReset { s with inputs := l })

/-- No command writes SRC_PTR, SRC_LEN, DST_PTR or DST_CAP (10_state.md R27 to R30), and no step changes the configuration
(R49), nor which power-on this is (that State carries the two is the model's choice, logs 1 and 4). -/
def Obligations.PointersAndConfigurationAreLeftAlone : Prop :=
  (∀ (i : Instr) (s t : State), exec i s = .next t →
    t.srcPtr = s.srcPtr ∧ t.srcLen = s.srcLen ∧ t.dstPtr = s.dstPtr ∧ t.dstCap = s.dstCap) ∧
  ∀ s t : State, step s = .next t → t.cfg = s.cfg ∧ t.powerOn = s.powerOn

/-- From every state that meets the invariant, a step that goes on meets it again: the configuration describes an FCPE, the
memory is canonical and inside MEM, FAULT and RESULT agree, only a REL in contract waits, and every frame sent is sound. -/
def Obligations.StepKeepsTheInvariant : Prop := ∀ s t : State, Inv s → step s = .next t → Inv t

/-- The invariant holds after reset, of the model's configuration and of every other (70_reset_and_hazards.md R200). -/
def Obligations.ResetMeetsTheInvariant : Prop :=
  Inv State.reset ∧ ∀ (c : Config) (p : Nat), c.wf = true → Inv (State.resetWith c p)

/-- Nothing but the spec's own stops ends a run: while the host keeps to the model and no REL waits, every step goes on,
and the host still keeps to the model after it (93_implementation_defined.md U1, U2, U7). -/
def Obligations.NothingElseStops : Prop :=
  ∀ s : State, Inv s → HostKeepsToModel s →
    (s.waiting = none → Runs s) ∧ ∀ t, step s = .next t → HostKeepsToModel t

/-! ### Two commands in a row -/

/-- FDEC of the bytes FENC stored gives back the payload, the address and the control byte, through MEM and the registers
(40_frame_codec.md R102, R103, R105). -/
def Obligations.FdecUndoesFenc : Prop :=
  ∀ (s t : State) (ptr room : Word), exec .fenc s = .next t → t.result = .ok →
    InRange s.cfg ptr room → s.srcLen.toNat ≤ room.toNat →
    ∃ u, exec .fdec { t with srcPtr := s.dstPtr, srcLen := t.outLen, dstPtr := ptr, dstCap := room } = .next u ∧
      u.result = .ok ∧ u.frAddr = s.frAddr ∧ u.frCtrl = s.frCtrl ∧ u.outLen = s.srcLen ∧
      memRead u ptr.toNat s.srcLen.toNat = memRead s s.srcPtr.toNat s.srcLen.toNat

/-- PDEC of the bytes PENC stored gives back every field and points at the payload's bytes (41_packet_protocol.md R134,
R135, R137). -/
def Obligations.PdecUndoesPenc : Prop :=
  ∀ s t : State, s.cfg.wf = true → exec .penc s = .next t → t.result = .ok →
    ∃ u, exec .pdec { t with srcPtr := s.dstPtr, srcLen := t.outLen } = .next u ∧ u.result = .ok ∧
      u.pktType = s.pktType ∧ u.pktChannel = s.pktChannel ∧ u.pktService = s.pktService ∧
      u.pktMethod = s.pktMethod ∧ u.pktStatus = s.pktStatus ∧ u.pktPayLen = s.pktPayLen ∧
      memRead u u.pktPayPtr.toNat u.pktPayLen.toNat = memRead s s.pktPayPtr.toNat s.pktPayLen.toNat

/-- PDEC ends in OK exactly on the byte strings that are some envelope's encoding (41_packet_protocol.md R135, R137). -/
def Obligations.PdecAcceptsExactlyTheEncodings : Prop :=
  ∀ s : State, s.fault = false → InRange s.cfg s.srcPtr s.srcLen →
    ((∃ t, exec .pdec s = .next t ∧ t.result = .ok) ↔ ∃ e : Envelope, e.Legal ∧ envelopeEncode e = srcBytes s)

/-! ### The host's side -/

/-- An offset that names no register reads 0, and a write to it has no effect (10_state.md R22). -/
def Obligations.UnmappedOffsetsReadZeroIgnoreWrites : Prop :=
  (∀ (s : State) (off : Nat), 0x44 ≤ off → readOffset s off = 0#32) ∧
  ∀ (s : State) (off : Nat) (v : Word) (l : List Input), NextInput s (.regWrite 32 off v) l → 0x44 ≤ off → off ≤ 0xFC →
    off % 4 = 0 → step s = .next { s with inputs := l }

/-- Read-only registers ignore writes, CMD reads 0, the fields that read 0 do so whatever was written, and a read changes
nothing of the block (10_state.md R23; that the value read joins `observed` is the model's record, log 11). -/
def Obligations.ReadOnlyAndReservedBits : Prop :=
  (∀ (s : State) (r : Reg) (v : Word) (l : List Input), r = .status ∨ r = .outLen ∨ r = .outAux →
    NextInput s (.regWrite 32 (regOffset r) v) l → step s = .next { s with inputs := l }) ∧
  (∀ s : State, readOffset s 0x00 = 0#32) ∧
  (∀ s : State, (readOffset s 0x20).toNat < 2 ^ 8 ∧ (readOffset s 0x24).toNat < 2 ^ 8 ∧
    (readOffset s 0x04).extractLsb' 4 4 = 0#4 ∧ (readOffset s 0x04).extractLsb' 10 22 = 0#22) ∧
  (∀ (s : State) (r : Reg) (v : Word) (l : List Input), r = .frAddr ∨ r = .frCtrl →
    NextInput s (.regWrite 32 (regOffset r) v) l →
    ∃ t, step s = .next t ∧ (readReg t r).toNat = v.toNat % 256) ∧
  ∀ (s : State) (off : Nat) (l : List Input), NextInput s (.regRead 32 off) l → off % 4 = 0 → off < 0x100 →
    step s = .next { s with inputs := l, observed := s.observed ++ [.reg off (readOffset s off)] }

/-- The register map: each register's offset, what a read of that offset returns, and which field each register is
(10_state.md R24 to R41). A write to a read-write register is read back (FR_ADDR and FR_CTRL: its low byte), also while
FAULT = 1; no other register reads otherwise, and nothing that is no read-write register changes, flags, MEM, history and
the model's own fields among it, but that the access is taken from the inputs (R24, R33, R34, 20_memory.md R59). -/
def Obligations.RegisterWriteIsReadBack : Prop :=
  (regOffset .cmd = 0x00 ∧ regOffset .status = 0x04 ∧ regOffset .srcPtr = 0x08 ∧ regOffset .srcLen = 0x0C ∧
    regOffset .dstPtr = 0x10 ∧ regOffset .dstCap = 0x14 ∧ regOffset .outLen = 0x18 ∧ regOffset .outAux = 0x1C ∧
    regOffset .frAddr = 0x20 ∧ regOffset .frCtrl = 0x24 ∧ regOffset .pktType = 0x28 ∧ regOffset .pktChannel = 0x2C ∧
    regOffset .pktService = 0x30 ∧ regOffset .pktMethod = 0x34 ∧ regOffset .pktStatus = 0x38 ∧
    regOffset .pktPayPtr = 0x3C ∧ regOffset .pktPayLen = 0x40) ∧
  (∀ (s : State) (r : Reg), readOffset s (regOffset r) = readReg s r) ∧
  (∀ s : State, readReg s .cmd = 0#32 ∧ readReg s .status = statusWord s ∧
    readReg s .srcPtr = s.srcPtr ∧ readReg s .srcLen = s.srcLen ∧ readReg s .dstPtr = s.dstPtr ∧
    readReg s .dstCap = s.dstCap ∧ readReg s .outLen = s.outLen ∧ readReg s .outAux = s.outAux ∧
    (readReg s .frAddr).toNat = s.frAddr.toNat ∧ (readReg s .frCtrl).toNat = s.frCtrl.toNat ∧
    readReg s .pktType = s.pktType ∧ readReg s .pktChannel = s.pktChannel ∧ readReg s .pktService = s.pktService ∧
    readReg s .pktMethod = s.pktMethod ∧ readReg s .pktStatus = s.pktStatus ∧ readReg s .pktPayPtr = s.pktPayPtr ∧
    readReg s .pktPayLen = s.pktPayLen) ∧
  ∀ (s : State) (r : Reg) (v : Word) (l : List Input), r ∉ [Reg.cmd, .status, .outLen, .outAux] →
    NextInput s (.regWrite 32 (regOffset r) v) l →
    ∃ t, step s = .next t ∧
      readOffset t (regOffset r) = (if r = .frAddr ∨ r = .frCtrl then v &&& 0xFF#32 else v) ∧
      (∀ r', r' ≠ r → readReg t r' = readReg s r') ∧
      t = { s with srcPtr := t.srcPtr, srcLen := t.srcLen, dstPtr := t.dstPtr, dstCap := t.dstCap,
                   frAddr := t.frAddr, frCtrl := t.frCtrl, pktType := t.pktType, pktChannel := t.pktChannel,
                   pktService := t.pktService, pktMethod := t.pktMethod, pktStatus := t.pktStatus,
                   pktPayPtr := t.pktPayPtr, pktPayLen := t.pktPayLen, inputs := l }

/-- The fields of the STATUS word (10_state.md R26). -/
def Obligations.StatusFieldsStandWhereTheyShould : Prop :=
  ∀ s : State, readOffset s 0x04 = statusWord s ∧ (statusWord s).extractLsb' 0 4 = resultCode s.result ∧
    (statusWord s).extractLsb' 4 4 = 0#4 ∧ (statusWord s).getLsbD 8 = s.acquired ∧ (statusWord s).getLsbD 9 = s.fault ∧
    (statusWord s).extractLsb' 10 22 = 0#22

/-- A register access that is not an aligned 32-bit access inside the window is refused, and so is a host access of a MEM
byte at or above MEM_SIZE (10_state.md R21, 20_memory.md R51). -/
def Obligations.AccessOutsideTheModelIsRefused : Prop :=
  (∀ (s : State) (width off : Nat) (v : Word) (l : List Input), width ≠ 32 ∨ off % 4 ≠ 0 ∨ 0x100 ≤ off →
    (NextInput s (.regWrite width off v) l ∨ NextInput s (.regRead width off) l) →
    step s = .refused .regAccessOutsideModel) ∧
  ∀ (s : State) (a : Nat) (b : Byte) (l : List Input), s.cfg.memSize ≤ a →
    (NextInput s (.memWrite a b) l ∨ NextInput s (.memRead a) l) → step s = .refused .memAccessOutsideModel

/-- A host read of a MEM byte returns it and changes nothing of the block; a host write of MEM bytes in a row stores them
as one sequence, byte by byte, and they then read back (20_memory.md R51, R59, 30_encoding.md R91; that the value read
joins `observed` is the model's record, log 11). -/
def Obligations.HostReadsAndWritesBytesOfMem : Prop :=
  (∀ (s : State) (a : Nat) (l : List Input), NextInput s (.memRead a) l → a < s.cfg.memSize →
    step s = .next { s with inputs := l, observed := s.observed ++ [.mem a (readByte s a)] }) ∧
  ∀ (s : State) (a : Nat) (v : List Byte) (l : List Input), s.cfg.wf = true → s.waiting = none →
    s.inputs = memLineInputs a v ++ l → a + v.length ≤ s.cfg.memSize →
    ∃ t, Host.Core.run Sys2Proof.core v.length s = .next t ∧ t = { s with mem := t.mem, inputs := l } ∧
      memRead t a v.length = v ∧ ∀ x, ¬ Within a v.length x → readByte t x = readByte s x

/-- `cmd <MNEMONIC>` is `wr CMD, <word>`, and the lines encode as R91 says (30_encoding.md R90, R91). -/
def Obligations.HostLinesEncodeAsTransactions : Prop :=
  (∀ i : Instr, lineInputs (.cmd i) = lineInputs (.wr .cmd (encode i))) ∧
  (∀ (r : Reg) (v : Word), lineInputs (.wr r v) = [.regWrite 32 (regOffset r) v]) ∧
  (∀ r : Reg, lineInputs (.rd r) = [.regRead 32 (regOffset r)]) ∧
  lineInputs (.wr .frAddr 0x7B#32) = [.regWrite 32 0x20 0x0000007B#32] ∧
  lineInputs (.cmd .rel) = [.regWrite 32 0x00 0x00000007#32] ∧
  ∀ (a k : Nat) (l : List Byte), (lineInputs (.mem a l))[k]? = l[k]?.map fun b => .memWrite (a + k) b

/-- A reset, served or ending a wait, sets every register to 0 and RESULT to OK, clears ACQUIRED, FAULT and the sink
history, and keeps every byte of MEM (70_reset_and_hazards.md R200, R201; logs 8 and 9 for what it keeps of the model's own). -/
def Obligations.ResetKeepsOnlyMem : Prop :=
  ∀ (s : State) (l : List Input), NextInput s .reset l ∨ (s.cfg.wf = true ∧ s.waiting ≠ none ∧ s.inputs = .reset :: l) →
    ∃ t, step s = .next t ∧ (∀ off, readOffset t off = 0#32) ∧ t.result = .ok ∧ t.acquired = false ∧ t.fault = false ∧
      t.sinkHistory = [] ∧ t.waiting = none ∧ t.inputs = l ∧ ∀ a, readByte t a = readByte s a

/-- After reset every register reads 0, the flags are 0, nothing has been sent and nothing waits; with no input to come the
block stays idle (10_state.md R24, 70_reset_and_hazards.md R200, R202; that an idle step changes nothing is log 10). -/
def Obligations.ResetStateIsIdle : Prop :=
  ∀ (c : Config) (p : Nat), (∀ off, readOffset (State.resetWith c p) off = 0#32) ∧
    (State.resetWith c p).acquired = false ∧ (State.resetWith c p).fault = false ∧
    (State.resetWith c p).sinkHistory = [] ∧ (State.resetWith c p).waiting = none ∧
    (c.wf = true → step (State.resetWith c p) = .next (State.resetWith c p))

/-- A configuration that breaks a constraint is refused at every step (00_scope.md R6). -/
def Obligations.BrokenConfigurationIsRefused : Prop :=
  ∀ s : State, (2 ^ 32 < s.cfg.memSize ∨ s.cfg.bufSize < 14 ∨ s.cfg.memSize < s.cfg.chBufBase + s.cfg.bufSize) →
    step s = .refused .badConfig
end

