-- ==== Sys2Proof/Laws/State.lean ====
section
/-! SUPPORT. One lemma per field of State for each named update, true by rfl, so that no proof unfolds a record update. -/

namespace Sys2Proof.Machine

/-! ### setResult -/

@[simp] theorem State.setResult_cfg (s : State) (r : Result) : (s.setResult r).cfg = s.cfg := rfl
@[simp] theorem State.setResult_powerOn (s : State) (r : Result) : (s.setResult r).powerOn = s.powerOn := rfl
@[simp] theorem State.setResult_srcPtr (s : State) (r : Result) : (s.setResult r).srcPtr = s.srcPtr := rfl
@[simp] theorem State.setResult_srcLen (s : State) (r : Result) : (s.setResult r).srcLen = s.srcLen := rfl
@[simp] theorem State.setResult_dstPtr (s : State) (r : Result) : (s.setResult r).dstPtr = s.dstPtr := rfl
@[simp] theorem State.setResult_dstCap (s : State) (r : Result) : (s.setResult r).dstCap = s.dstCap := rfl
@[simp] theorem State.setResult_outLen (s : State) (r : Result) : (s.setResult r).outLen = s.outLen := rfl
@[simp] theorem State.setResult_outAux (s : State) (r : Result) : (s.setResult r).outAux = s.outAux := rfl
@[simp] theorem State.setResult_frAddr (s : State) (r : Result) : (s.setResult r).frAddr = s.frAddr := rfl
@[simp] theorem State.setResult_frCtrl (s : State) (r : Result) : (s.setResult r).frCtrl = s.frCtrl := rfl
@[simp] theorem State.setResult_pktType (s : State) (r : Result) : (s.setResult r).pktType = s.pktType := rfl
@[simp] theorem State.setResult_pktChannel (s : State) (r : Result) : (s.setResult r).pktChannel = s.pktChannel := rfl
@[simp] theorem State.setResult_pktService (s : State) (r : Result) : (s.setResult r).pktService = s.pktService := rfl
@[simp] theorem State.setResult_pktMethod (s : State) (r : Result) : (s.setResult r).pktMethod = s.pktMethod := rfl
@[simp] theorem State.setResult_pktStatus (s : State) (r : Result) : (s.setResult r).pktStatus = s.pktStatus := rfl
@[simp] theorem State.setResult_pktPayPtr (s : State) (r : Result) : (s.setResult r).pktPayPtr = s.pktPayPtr := rfl
@[simp] theorem State.setResult_pktPayLen (s : State) (r : Result) : (s.setResult r).pktPayLen = s.pktPayLen := rfl
@[simp] theorem State.setResult_result (s : State) (r : Result) : (s.setResult r).result = r := rfl
@[simp] theorem State.setResult_acquired (s : State) (r : Result) : (s.setResult r).acquired = s.acquired := rfl
@[simp] theorem State.setResult_fault (s : State) (r : Result) : (s.setResult r).fault = s.fault := rfl
@[simp] theorem State.setResult_mem (s : State) (r : Result) : (s.setResult r).mem = s.mem := rfl
@[simp] theorem State.setResult_sinkHistory (s : State) (r : Result) : (s.setResult r).sinkHistory = s.sinkHistory := rfl
@[simp] theorem State.setResult_waiting (s : State) (r : Result) : (s.setResult r).waiting = s.waiting := rfl
@[simp] theorem State.setResult_sinkReplies (s : State) (r : Result) : (s.setResult r).sinkReplies = s.sinkReplies := rfl
@[simp] theorem State.setResult_sinkCount (s : State) (r : Result) : (s.setResult r).sinkCount = s.sinkCount := rfl
@[simp] theorem State.setResult_inputs (s : State) (r : Result) : (s.setResult r).inputs = s.inputs := rfl
@[simp] theorem State.setResult_observed (s : State) (r : Result) : (s.setResult r).observed = s.observed := rfl

/-! ### setOutLen -/

@[simp] theorem State.setOutLen_cfg (s : State) (w : Word) : (s.setOutLen w).cfg = s.cfg := rfl
@[simp] theorem State.setOutLen_powerOn (s : State) (w : Word) : (s.setOutLen w).powerOn = s.powerOn := rfl
@[simp] theorem State.setOutLen_srcPtr (s : State) (w : Word) : (s.setOutLen w).srcPtr = s.srcPtr := rfl
@[simp] theorem State.setOutLen_srcLen (s : State) (w : Word) : (s.setOutLen w).srcLen = s.srcLen := rfl
@[simp] theorem State.setOutLen_dstPtr (s : State) (w : Word) : (s.setOutLen w).dstPtr = s.dstPtr := rfl
@[simp] theorem State.setOutLen_dstCap (s : State) (w : Word) : (s.setOutLen w).dstCap = s.dstCap := rfl
@[simp] theorem State.setOutLen_outLen (s : State) (w : Word) : (s.setOutLen w).outLen = w := rfl
@[simp] theorem State.setOutLen_outAux (s : State) (w : Word) : (s.setOutLen w).outAux = s.outAux := rfl
@[simp] theorem State.setOutLen_frAddr (s : State) (w : Word) : (s.setOutLen w).frAddr = s.frAddr := rfl
@[simp] theorem State.setOutLen_frCtrl (s : State) (w : Word) : (s.setOutLen w).frCtrl = s.frCtrl := rfl
@[simp] theorem State.setOutLen_pktType (s : State) (w : Word) : (s.setOutLen w).pktType = s.pktType := rfl
@[simp] theorem State.setOutLen_pktChannel (s : State) (w : Word) : (s.setOutLen w).pktChannel = s.pktChannel := rfl
@[simp] theorem State.setOutLen_pktService (s : State) (w : Word) : (s.setOutLen w).pktService = s.pktService := rfl
@[simp] theorem State.setOutLen_pktMethod (s : State) (w : Word) : (s.setOutLen w).pktMethod = s.pktMethod := rfl
@[simp] theorem State.setOutLen_pktStatus (s : State) (w : Word) : (s.setOutLen w).pktStatus = s.pktStatus := rfl
@[simp] theorem State.setOutLen_pktPayPtr (s : State) (w : Word) : (s.setOutLen w).pktPayPtr = s.pktPayPtr := rfl
@[simp] theorem State.setOutLen_pktPayLen (s : State) (w : Word) : (s.setOutLen w).pktPayLen = s.pktPayLen := rfl
@[simp] theorem State.setOutLen_result (s : State) (w : Word) : (s.setOutLen w).result = s.result := rfl
@[simp] theorem State.setOutLen_acquired (s : State) (w : Word) : (s.setOutLen w).acquired = s.acquired := rfl
@[simp] theorem State.setOutLen_fault (s : State) (w : Word) : (s.setOutLen w).fault = s.fault := rfl
@[simp] theorem State.setOutLen_mem (s : State) (w : Word) : (s.setOutLen w).mem = s.mem := rfl
@[simp] theorem State.setOutLen_sinkHistory (s : State) (w : Word) : (s.setOutLen w).sinkHistory = s.sinkHistory := rfl
@[simp] theorem State.setOutLen_waiting (s : State) (w : Word) : (s.setOutLen w).waiting = s.waiting := rfl
@[simp] theorem State.setOutLen_sinkReplies (s : State) (w : Word) : (s.setOutLen w).sinkReplies = s.sinkReplies := rfl
@[simp] theorem State.setOutLen_sinkCount (s : State) (w : Word) : (s.setOutLen w).sinkCount = s.sinkCount := rfl
@[simp] theorem State.setOutLen_inputs (s : State) (w : Word) : (s.setOutLen w).inputs = s.inputs := rfl
@[simp] theorem State.setOutLen_observed (s : State) (w : Word) : (s.setOutLen w).observed = s.observed := rfl

/-! ### setOutAux -/

@[simp] theorem State.setOutAux_cfg (s : State) (w : Word) : (s.setOutAux w).cfg = s.cfg := rfl
@[simp] theorem State.setOutAux_powerOn (s : State) (w : Word) : (s.setOutAux w).powerOn = s.powerOn := rfl
@[simp] theorem State.setOutAux_srcPtr (s : State) (w : Word) : (s.setOutAux w).srcPtr = s.srcPtr := rfl
@[simp] theorem State.setOutAux_srcLen (s : State) (w : Word) : (s.setOutAux w).srcLen = s.srcLen := rfl
@[simp] theorem State.setOutAux_dstPtr (s : State) (w : Word) : (s.setOutAux w).dstPtr = s.dstPtr := rfl
@[simp] theorem State.setOutAux_dstCap (s : State) (w : Word) : (s.setOutAux w).dstCap = s.dstCap := rfl
@[simp] theorem State.setOutAux_outLen (s : State) (w : Word) : (s.setOutAux w).outLen = s.outLen := rfl
@[simp] theorem State.setOutAux_outAux (s : State) (w : Word) : (s.setOutAux w).outAux = w := rfl
@[simp] theorem State.setOutAux_frAddr (s : State) (w : Word) : (s.setOutAux w).frAddr = s.frAddr := rfl
@[simp] theorem State.setOutAux_frCtrl (s : State) (w : Word) : (s.setOutAux w).frCtrl = s.frCtrl := rfl
@[simp] theorem State.setOutAux_pktType (s : State) (w : Word) : (s.setOutAux w).pktType = s.pktType := rfl
@[simp] theorem State.setOutAux_pktChannel (s : State) (w : Word) : (s.setOutAux w).pktChannel = s.pktChannel := rfl
@[simp] theorem State.setOutAux_pktService (s : State) (w : Word) : (s.setOutAux w).pktService = s.pktService := rfl
@[simp] theorem State.setOutAux_pktMethod (s : State) (w : Word) : (s.setOutAux w).pktMethod = s.pktMethod := rfl
@[simp] theorem State.setOutAux_pktStatus (s : State) (w : Word) : (s.setOutAux w).pktStatus = s.pktStatus := rfl
@[simp] theorem State.setOutAux_pktPayPtr (s : State) (w : Word) : (s.setOutAux w).pktPayPtr = s.pktPayPtr := rfl
@[simp] theorem State.setOutAux_pktPayLen (s : State) (w : Word) : (s.setOutAux w).pktPayLen = s.pktPayLen := rfl
@[simp] theorem State.setOutAux_result (s : State) (w : Word) : (s.setOutAux w).result = s.result := rfl
@[simp] theorem State.setOutAux_acquired (s : State) (w : Word) : (s.setOutAux w).acquired = s.acquired := rfl
@[simp] theorem State.setOutAux_fault (s : State) (w : Word) : (s.setOutAux w).fault = s.fault := rfl
@[simp] theorem State.setOutAux_mem (s : State) (w : Word) : (s.setOutAux w).mem = s.mem := rfl
@[simp] theorem State.setOutAux_sinkHistory (s : State) (w : Word) : (s.setOutAux w).sinkHistory = s.sinkHistory := rfl
@[simp] theorem State.setOutAux_waiting (s : State) (w : Word) : (s.setOutAux w).waiting = s.waiting := rfl
@[simp] theorem State.setOutAux_sinkReplies (s : State) (w : Word) : (s.setOutAux w).sinkReplies = s.sinkReplies := rfl
@[simp] theorem State.setOutAux_sinkCount (s : State) (w : Word) : (s.setOutAux w).sinkCount = s.sinkCount := rfl
@[simp] theorem State.setOutAux_inputs (s : State) (w : Word) : (s.setOutAux w).inputs = s.inputs := rfl
@[simp] theorem State.setOutAux_observed (s : State) (w : Word) : (s.setOutAux w).observed = s.observed := rfl

/-! ### setAcquired -/

@[simp] theorem State.setAcquired_cfg (s : State) (b : Bool) : (s.setAcquired b).cfg = s.cfg := rfl
@[simp] theorem State.setAcquired_powerOn (s : State) (b : Bool) : (s.setAcquired b).powerOn = s.powerOn := rfl
@[simp] theorem State.setAcquired_srcPtr (s : State) (b : Bool) : (s.setAcquired b).srcPtr = s.srcPtr := rfl
@[simp] theorem State.setAcquired_srcLen (s : State) (b : Bool) : (s.setAcquired b).srcLen = s.srcLen := rfl
@[simp] theorem State.setAcquired_dstPtr (s : State) (b : Bool) : (s.setAcquired b).dstPtr = s.dstPtr := rfl
@[simp] theorem State.setAcquired_dstCap (s : State) (b : Bool) : (s.setAcquired b).dstCap = s.dstCap := rfl
@[simp] theorem State.setAcquired_outLen (s : State) (b : Bool) : (s.setAcquired b).outLen = s.outLen := rfl
@[simp] theorem State.setAcquired_outAux (s : State) (b : Bool) : (s.setAcquired b).outAux = s.outAux := rfl
@[simp] theorem State.setAcquired_frAddr (s : State) (b : Bool) : (s.setAcquired b).frAddr = s.frAddr := rfl
@[simp] theorem State.setAcquired_frCtrl (s : State) (b : Bool) : (s.setAcquired b).frCtrl = s.frCtrl := rfl
@[simp] theorem State.setAcquired_pktType (s : State) (b : Bool) : (s.setAcquired b).pktType = s.pktType := rfl
@[simp] theorem State.setAcquired_pktChannel (s : State) (b : Bool) : (s.setAcquired b).pktChannel = s.pktChannel := rfl
@[simp] theorem State.setAcquired_pktService (s : State) (b : Bool) : (s.setAcquired b).pktService = s.pktService := rfl
@[simp] theorem State.setAcquired_pktMethod (s : State) (b : Bool) : (s.setAcquired b).pktMethod = s.pktMethod := rfl
@[simp] theorem State.setAcquired_pktStatus (s : State) (b : Bool) : (s.setAcquired b).pktStatus = s.pktStatus := rfl
@[simp] theorem State.setAcquired_pktPayPtr (s : State) (b : Bool) : (s.setAcquired b).pktPayPtr = s.pktPayPtr := rfl
@[simp] theorem State.setAcquired_pktPayLen (s : State) (b : Bool) : (s.setAcquired b).pktPayLen = s.pktPayLen := rfl
@[simp] theorem State.setAcquired_result (s : State) (b : Bool) : (s.setAcquired b).result = s.result := rfl
@[simp] theorem State.setAcquired_acquired (s : State) (b : Bool) : (s.setAcquired b).acquired = b := rfl
@[simp] theorem State.setAcquired_fault (s : State) (b : Bool) : (s.setAcquired b).fault = s.fault := rfl
@[simp] theorem State.setAcquired_mem (s : State) (b : Bool) : (s.setAcquired b).mem = s.mem := rfl
@[simp] theorem State.setAcquired_sinkHistory (s : State) (b : Bool) : (s.setAcquired b).sinkHistory = s.sinkHistory := rfl
@[simp] theorem State.setAcquired_waiting (s : State) (b : Bool) : (s.setAcquired b).waiting = s.waiting := rfl
@[simp] theorem State.setAcquired_sinkReplies (s : State) (b : Bool) : (s.setAcquired b).sinkReplies = s.sinkReplies := rfl
@[simp] theorem State.setAcquired_sinkCount (s : State) (b : Bool) : (s.setAcquired b).sinkCount = s.sinkCount := rfl
@[simp] theorem State.setAcquired_inputs (s : State) (b : Bool) : (s.setAcquired b).inputs = s.inputs := rfl
@[simp] theorem State.setAcquired_observed (s : State) (b : Bool) : (s.setAcquired b).observed = s.observed := rfl

/-! ### setFault -/

@[simp] theorem State.setFault_cfg (s : State) (b : Bool) : (s.setFault b).cfg = s.cfg := rfl
@[simp] theorem State.setFault_powerOn (s : State) (b : Bool) : (s.setFault b).powerOn = s.powerOn := rfl
@[simp] theorem State.setFault_srcPtr (s : State) (b : Bool) : (s.setFault b).srcPtr = s.srcPtr := rfl
@[simp] theorem State.setFault_srcLen (s : State) (b : Bool) : (s.setFault b).srcLen = s.srcLen := rfl
@[simp] theorem State.setFault_dstPtr (s : State) (b : Bool) : (s.setFault b).dstPtr = s.dstPtr := rfl
@[simp] theorem State.setFault_dstCap (s : State) (b : Bool) : (s.setFault b).dstCap = s.dstCap := rfl
@[simp] theorem State.setFault_outLen (s : State) (b : Bool) : (s.setFault b).outLen = s.outLen := rfl
@[simp] theorem State.setFault_outAux (s : State) (b : Bool) : (s.setFault b).outAux = s.outAux := rfl
@[simp] theorem State.setFault_frAddr (s : State) (b : Bool) : (s.setFault b).frAddr = s.frAddr := rfl
@[simp] theorem State.setFault_frCtrl (s : State) (b : Bool) : (s.setFault b).frCtrl = s.frCtrl := rfl
@[simp] theorem State.setFault_pktType (s : State) (b : Bool) : (s.setFault b).pktType = s.pktType := rfl
@[simp] theorem State.setFault_pktChannel (s : State) (b : Bool) : (s.setFault b).pktChannel = s.pktChannel := rfl
@[simp] theorem State.setFault_pktService (s : State) (b : Bool) : (s.setFault b).pktService = s.pktService := rfl
@[simp] theorem State.setFault_pktMethod (s : State) (b : Bool) : (s.setFault b).pktMethod = s.pktMethod := rfl
@[simp] theorem State.setFault_pktStatus (s : State) (b : Bool) : (s.setFault b).pktStatus = s.pktStatus := rfl
@[simp] theorem State.setFault_pktPayPtr (s : State) (b : Bool) : (s.setFault b).pktPayPtr = s.pktPayPtr := rfl
@[simp] theorem State.setFault_pktPayLen (s : State) (b : Bool) : (s.setFault b).pktPayLen = s.pktPayLen := rfl
@[simp] theorem State.setFault_result (s : State) (b : Bool) : (s.setFault b).result = s.result := rfl
@[simp] theorem State.setFault_acquired (s : State) (b : Bool) : (s.setFault b).acquired = s.acquired := rfl
@[simp] theorem State.setFault_fault (s : State) (b : Bool) : (s.setFault b).fault = b := rfl
@[simp] theorem State.setFault_mem (s : State) (b : Bool) : (s.setFault b).mem = s.mem := rfl
@[simp] theorem State.setFault_sinkHistory (s : State) (b : Bool) : (s.setFault b).sinkHistory = s.sinkHistory := rfl
@[simp] theorem State.setFault_waiting (s : State) (b : Bool) : (s.setFault b).waiting = s.waiting := rfl
@[simp] theorem State.setFault_sinkReplies (s : State) (b : Bool) : (s.setFault b).sinkReplies = s.sinkReplies := rfl
@[simp] theorem State.setFault_sinkCount (s : State) (b : Bool) : (s.setFault b).sinkCount = s.sinkCount := rfl
@[simp] theorem State.setFault_inputs (s : State) (b : Bool) : (s.setFault b).inputs = s.inputs := rfl
@[simp] theorem State.setFault_observed (s : State) (b : Bool) : (s.setFault b).observed = s.observed := rfl

/-! ### setMem -/

@[simp] theorem State.setMem_cfg (s : State) (m : Memory) : (s.setMem m).cfg = s.cfg := rfl
@[simp] theorem State.setMem_powerOn (s : State) (m : Memory) : (s.setMem m).powerOn = s.powerOn := rfl
@[simp] theorem State.setMem_srcPtr (s : State) (m : Memory) : (s.setMem m).srcPtr = s.srcPtr := rfl
@[simp] theorem State.setMem_srcLen (s : State) (m : Memory) : (s.setMem m).srcLen = s.srcLen := rfl
@[simp] theorem State.setMem_dstPtr (s : State) (m : Memory) : (s.setMem m).dstPtr = s.dstPtr := rfl
@[simp] theorem State.setMem_dstCap (s : State) (m : Memory) : (s.setMem m).dstCap = s.dstCap := rfl
@[simp] theorem State.setMem_outLen (s : State) (m : Memory) : (s.setMem m).outLen = s.outLen := rfl
@[simp] theorem State.setMem_outAux (s : State) (m : Memory) : (s.setMem m).outAux = s.outAux := rfl
@[simp] theorem State.setMem_frAddr (s : State) (m : Memory) : (s.setMem m).frAddr = s.frAddr := rfl
@[simp] theorem State.setMem_frCtrl (s : State) (m : Memory) : (s.setMem m).frCtrl = s.frCtrl := rfl
@[simp] theorem State.setMem_pktType (s : State) (m : Memory) : (s.setMem m).pktType = s.pktType := rfl
@[simp] theorem State.setMem_pktChannel (s : State) (m : Memory) : (s.setMem m).pktChannel = s.pktChannel := rfl
@[simp] theorem State.setMem_pktService (s : State) (m : Memory) : (s.setMem m).pktService = s.pktService := rfl
@[simp] theorem State.setMem_pktMethod (s : State) (m : Memory) : (s.setMem m).pktMethod = s.pktMethod := rfl
@[simp] theorem State.setMem_pktStatus (s : State) (m : Memory) : (s.setMem m).pktStatus = s.pktStatus := rfl
@[simp] theorem State.setMem_pktPayPtr (s : State) (m : Memory) : (s.setMem m).pktPayPtr = s.pktPayPtr := rfl
@[simp] theorem State.setMem_pktPayLen (s : State) (m : Memory) : (s.setMem m).pktPayLen = s.pktPayLen := rfl
@[simp] theorem State.setMem_result (s : State) (m : Memory) : (s.setMem m).result = s.result := rfl
@[simp] theorem State.setMem_acquired (s : State) (m : Memory) : (s.setMem m).acquired = s.acquired := rfl
@[simp] theorem State.setMem_fault (s : State) (m : Memory) : (s.setMem m).fault = s.fault := rfl
@[simp] theorem State.setMem_mem (s : State) (m : Memory) : (s.setMem m).mem = m := rfl
@[simp] theorem State.setMem_sinkHistory (s : State) (m : Memory) : (s.setMem m).sinkHistory = s.sinkHistory := rfl
@[simp] theorem State.setMem_waiting (s : State) (m : Memory) : (s.setMem m).waiting = s.waiting := rfl
@[simp] theorem State.setMem_sinkReplies (s : State) (m : Memory) : (s.setMem m).sinkReplies = s.sinkReplies := rfl
@[simp] theorem State.setMem_sinkCount (s : State) (m : Memory) : (s.setMem m).sinkCount = s.sinkCount := rfl
@[simp] theorem State.setMem_inputs (s : State) (m : Memory) : (s.setMem m).inputs = s.inputs := rfl
@[simp] theorem State.setMem_observed (s : State) (m : Memory) : (s.setMem m).observed = s.observed := rfl

/-! ### setFrameFields -/

@[simp] theorem State.setFrameFields_cfg (s : State) (a c : Byte) : (s.setFrameFields a c).cfg = s.cfg := rfl
@[simp] theorem State.setFrameFields_powerOn (s : State) (a c : Byte) : (s.setFrameFields a c).powerOn = s.powerOn := rfl
@[simp] theorem State.setFrameFields_srcPtr (s : State) (a c : Byte) : (s.setFrameFields a c).srcPtr = s.srcPtr := rfl
@[simp] theorem State.setFrameFields_srcLen (s : State) (a c : Byte) : (s.setFrameFields a c).srcLen = s.srcLen := rfl
@[simp] theorem State.setFrameFields_dstPtr (s : State) (a c : Byte) : (s.setFrameFields a c).dstPtr = s.dstPtr := rfl
@[simp] theorem State.setFrameFields_dstCap (s : State) (a c : Byte) : (s.setFrameFields a c).dstCap = s.dstCap := rfl
@[simp] theorem State.setFrameFields_outLen (s : State) (a c : Byte) : (s.setFrameFields a c).outLen = s.outLen := rfl
@[simp] theorem State.setFrameFields_outAux (s : State) (a c : Byte) : (s.setFrameFields a c).outAux = s.outAux := rfl
@[simp] theorem State.setFrameFields_frAddr (s : State) (a c : Byte) : (s.setFrameFields a c).frAddr = a := rfl
@[simp] theorem State.setFrameFields_frCtrl (s : State) (a c : Byte) : (s.setFrameFields a c).frCtrl = c := rfl
@[simp] theorem State.setFrameFields_pktType (s : State) (a c : Byte) : (s.setFrameFields a c).pktType = s.pktType := rfl
@[simp] theorem State.setFrameFields_pktChannel (s : State) (a c : Byte) : (s.setFrameFields a c).pktChannel = s.pktChannel := rfl
@[simp] theorem State.setFrameFields_pktService (s : State) (a c : Byte) : (s.setFrameFields a c).pktService = s.pktService := rfl
@[simp] theorem State.setFrameFields_pktMethod (s : State) (a c : Byte) : (s.setFrameFields a c).pktMethod = s.pktMethod := rfl
@[simp] theorem State.setFrameFields_pktStatus (s : State) (a c : Byte) : (s.setFrameFields a c).pktStatus = s.pktStatus := rfl
@[simp] theorem State.setFrameFields_pktPayPtr (s : State) (a c : Byte) : (s.setFrameFields a c).pktPayPtr = s.pktPayPtr := rfl
@[simp] theorem State.setFrameFields_pktPayLen (s : State) (a c : Byte) : (s.setFrameFields a c).pktPayLen = s.pktPayLen := rfl
@[simp] theorem State.setFrameFields_result (s : State) (a c : Byte) : (s.setFrameFields a c).result = s.result := rfl
@[simp] theorem State.setFrameFields_acquired (s : State) (a c : Byte) : (s.setFrameFields a c).acquired = s.acquired := rfl
@[simp] theorem State.setFrameFields_fault (s : State) (a c : Byte) : (s.setFrameFields a c).fault = s.fault := rfl
@[simp] theorem State.setFrameFields_mem (s : State) (a c : Byte) : (s.setFrameFields a c).mem = s.mem := rfl
@[simp] theorem State.setFrameFields_sinkHistory (s : State) (a c : Byte) : (s.setFrameFields a c).sinkHistory = s.sinkHistory := rfl
@[simp] theorem State.setFrameFields_waiting (s : State) (a c : Byte) : (s.setFrameFields a c).waiting = s.waiting := rfl
@[simp] theorem State.setFrameFields_sinkReplies (s : State) (a c : Byte) : (s.setFrameFields a c).sinkReplies = s.sinkReplies := rfl
@[simp] theorem State.setFrameFields_sinkCount (s : State) (a c : Byte) : (s.setFrameFields a c).sinkCount = s.sinkCount := rfl
@[simp] theorem State.setFrameFields_inputs (s : State) (a c : Byte) : (s.setFrameFields a c).inputs = s.inputs := rfl
@[simp] theorem State.setFrameFields_observed (s : State) (a c : Byte) : (s.setFrameFields a c).observed = s.observed := rfl

/-! ### recordSink -/

@[simp] theorem State.recordSink_cfg (s : State) (r : SinkRecord) : (s.recordSink r).cfg = s.cfg := rfl
@[simp] theorem State.recordSink_powerOn (s : State) (r : SinkRecord) : (s.recordSink r).powerOn = s.powerOn := rfl
@[simp] theorem State.recordSink_srcPtr (s : State) (r : SinkRecord) : (s.recordSink r).srcPtr = s.srcPtr := rfl
@[simp] theorem State.recordSink_srcLen (s : State) (r : SinkRecord) : (s.recordSink r).srcLen = s.srcLen := rfl
@[simp] theorem State.recordSink_dstPtr (s : State) (r : SinkRecord) : (s.recordSink r).dstPtr = s.dstPtr := rfl
@[simp] theorem State.recordSink_dstCap (s : State) (r : SinkRecord) : (s.recordSink r).dstCap = s.dstCap := rfl
@[simp] theorem State.recordSink_outLen (s : State) (r : SinkRecord) : (s.recordSink r).outLen = s.outLen := rfl
@[simp] theorem State.recordSink_outAux (s : State) (r : SinkRecord) : (s.recordSink r).outAux = s.outAux := rfl
@[simp] theorem State.recordSink_frAddr (s : State) (r : SinkRecord) : (s.recordSink r).frAddr = s.frAddr := rfl
@[simp] theorem State.recordSink_frCtrl (s : State) (r : SinkRecord) : (s.recordSink r).frCtrl = s.frCtrl := rfl
@[simp] theorem State.recordSink_pktType (s : State) (r : SinkRecord) : (s.recordSink r).pktType = s.pktType := rfl
@[simp] theorem State.recordSink_pktChannel (s : State) (r : SinkRecord) : (s.recordSink r).pktChannel = s.pktChannel := rfl
@[simp] theorem State.recordSink_pktService (s : State) (r : SinkRecord) : (s.recordSink r).pktService = s.pktService := rfl
@[simp] theorem State.recordSink_pktMethod (s : State) (r : SinkRecord) : (s.recordSink r).pktMethod = s.pktMethod := rfl
@[simp] theorem State.recordSink_pktStatus (s : State) (r : SinkRecord) : (s.recordSink r).pktStatus = s.pktStatus := rfl
@[simp] theorem State.recordSink_pktPayPtr (s : State) (r : SinkRecord) : (s.recordSink r).pktPayPtr = s.pktPayPtr := rfl
@[simp] theorem State.recordSink_pktPayLen (s : State) (r : SinkRecord) : (s.recordSink r).pktPayLen = s.pktPayLen := rfl
@[simp] theorem State.recordSink_result (s : State) (r : SinkRecord) : (s.recordSink r).result = s.result := rfl
@[simp] theorem State.recordSink_acquired (s : State) (r : SinkRecord) : (s.recordSink r).acquired = s.acquired := rfl
@[simp] theorem State.recordSink_fault (s : State) (r : SinkRecord) : (s.recordSink r).fault = s.fault := rfl
@[simp] theorem State.recordSink_mem (s : State) (r : SinkRecord) : (s.recordSink r).mem = s.mem := rfl
@[simp] theorem State.recordSink_sinkHistory (s : State) (r : SinkRecord) : (s.recordSink r).sinkHistory = s.sinkHistory ++ [r] := rfl
@[simp] theorem State.recordSink_waiting (s : State) (r : SinkRecord) : (s.recordSink r).waiting = s.waiting := rfl
@[simp] theorem State.recordSink_sinkReplies (s : State) (r : SinkRecord) : (s.recordSink r).sinkReplies = s.sinkReplies := rfl
@[simp] theorem State.recordSink_sinkCount (s : State) (r : SinkRecord) : (s.recordSink r).sinkCount = s.sinkCount := rfl
@[simp] theorem State.recordSink_inputs (s : State) (r : SinkRecord) : (s.recordSink r).inputs = s.inputs := rfl
@[simp] theorem State.recordSink_observed (s : State) (r : SinkRecord) : (s.recordSink r).observed = s.observed := rfl

/-! ### takeReply -/

@[simp] theorem State.takeReply_cfg (s : State) : (s.takeReply).cfg = s.cfg := rfl
@[simp] theorem State.takeReply_powerOn (s : State) : (s.takeReply).powerOn = s.powerOn := rfl
@[simp] theorem State.takeReply_srcPtr (s : State) : (s.takeReply).srcPtr = s.srcPtr := rfl
@[simp] theorem State.takeReply_srcLen (s : State) : (s.takeReply).srcLen = s.srcLen := rfl
@[simp] theorem State.takeReply_dstPtr (s : State) : (s.takeReply).dstPtr = s.dstPtr := rfl
@[simp] theorem State.takeReply_dstCap (s : State) : (s.takeReply).dstCap = s.dstCap := rfl
@[simp] theorem State.takeReply_outLen (s : State) : (s.takeReply).outLen = s.outLen := rfl
@[simp] theorem State.takeReply_outAux (s : State) : (s.takeReply).outAux = s.outAux := rfl
@[simp] theorem State.takeReply_frAddr (s : State) : (s.takeReply).frAddr = s.frAddr := rfl
@[simp] theorem State.takeReply_frCtrl (s : State) : (s.takeReply).frCtrl = s.frCtrl := rfl
@[simp] theorem State.takeReply_pktType (s : State) : (s.takeReply).pktType = s.pktType := rfl
@[simp] theorem State.takeReply_pktChannel (s : State) : (s.takeReply).pktChannel = s.pktChannel := rfl
@[simp] theorem State.takeReply_pktService (s : State) : (s.takeReply).pktService = s.pktService := rfl
@[simp] theorem State.takeReply_pktMethod (s : State) : (s.takeReply).pktMethod = s.pktMethod := rfl
@[simp] theorem State.takeReply_pktStatus (s : State) : (s.takeReply).pktStatus = s.pktStatus := rfl
@[simp] theorem State.takeReply_pktPayPtr (s : State) : (s.takeReply).pktPayPtr = s.pktPayPtr := rfl
@[simp] theorem State.takeReply_pktPayLen (s : State) : (s.takeReply).pktPayLen = s.pktPayLen := rfl
@[simp] theorem State.takeReply_result (s : State) : (s.takeReply).result = s.result := rfl
@[simp] theorem State.takeReply_acquired (s : State) : (s.takeReply).acquired = s.acquired := rfl
@[simp] theorem State.takeReply_fault (s : State) : (s.takeReply).fault = s.fault := rfl
@[simp] theorem State.takeReply_mem (s : State) : (s.takeReply).mem = s.mem := rfl
@[simp] theorem State.takeReply_sinkHistory (s : State) : (s.takeReply).sinkHistory = s.sinkHistory := rfl
@[simp] theorem State.takeReply_waiting (s : State) : (s.takeReply).waiting = s.waiting := rfl
@[simp] theorem State.takeReply_sinkReplies (s : State) : (s.takeReply).sinkReplies = s.sinkReplies.tail := rfl
@[simp] theorem State.takeReply_sinkCount (s : State) : (s.takeReply).sinkCount = s.sinkCount + 1 := rfl
@[simp] theorem State.takeReply_inputs (s : State) : (s.takeReply).inputs = s.inputs := rfl
@[simp] theorem State.takeReply_observed (s : State) : (s.takeReply).observed = s.observed := rfl

/-! ### setWaiting -/

@[simp] theorem State.setWaiting_cfg (s : State) (f : Option (List Byte)) : (s.setWaiting f).cfg = s.cfg := rfl
@[simp] theorem State.setWaiting_powerOn (s : State) (f : Option (List Byte)) : (s.setWaiting f).powerOn = s.powerOn := rfl
@[simp] theorem State.setWaiting_srcPtr (s : State) (f : Option (List Byte)) : (s.setWaiting f).srcPtr = s.srcPtr := rfl
@[simp] theorem State.setWaiting_srcLen (s : State) (f : Option (List Byte)) : (s.setWaiting f).srcLen = s.srcLen := rfl
@[simp] theorem State.setWaiting_dstPtr (s : State) (f : Option (List Byte)) : (s.setWaiting f).dstPtr = s.dstPtr := rfl
@[simp] theorem State.setWaiting_dstCap (s : State) (f : Option (List Byte)) : (s.setWaiting f).dstCap = s.dstCap := rfl
@[simp] theorem State.setWaiting_outLen (s : State) (f : Option (List Byte)) : (s.setWaiting f).outLen = s.outLen := rfl
@[simp] theorem State.setWaiting_outAux (s : State) (f : Option (List Byte)) : (s.setWaiting f).outAux = s.outAux := rfl
@[simp] theorem State.setWaiting_frAddr (s : State) (f : Option (List Byte)) : (s.setWaiting f).frAddr = s.frAddr := rfl
@[simp] theorem State.setWaiting_frCtrl (s : State) (f : Option (List Byte)) : (s.setWaiting f).frCtrl = s.frCtrl := rfl
@[simp] theorem State.setWaiting_pktType (s : State) (f : Option (List Byte)) : (s.setWaiting f).pktType = s.pktType := rfl
@[simp] theorem State.setWaiting_pktChannel (s : State) (f : Option (List Byte)) : (s.setWaiting f).pktChannel = s.pktChannel := rfl
@[simp] theorem State.setWaiting_pktService (s : State) (f : Option (List Byte)) : (s.setWaiting f).pktService = s.pktService := rfl
@[simp] theorem State.setWaiting_pktMethod (s : State) (f : Option (List Byte)) : (s.setWaiting f).pktMethod = s.pktMethod := rfl
@[simp] theorem State.setWaiting_pktStatus (s : State) (f : Option (List Byte)) : (s.setWaiting f).pktStatus = s.pktStatus := rfl
@[simp] theorem State.setWaiting_pktPayPtr (s : State) (f : Option (List Byte)) : (s.setWaiting f).pktPayPtr = s.pktPayPtr := rfl
@[simp] theorem State.setWaiting_pktPayLen (s : State) (f : Option (List Byte)) : (s.setWaiting f).pktPayLen = s.pktPayLen := rfl
@[simp] theorem State.setWaiting_result (s : State) (f : Option (List Byte)) : (s.setWaiting f).result = s.result := rfl
@[simp] theorem State.setWaiting_acquired (s : State) (f : Option (List Byte)) : (s.setWaiting f).acquired = s.acquired := rfl
@[simp] theorem State.setWaiting_fault (s : State) (f : Option (List Byte)) : (s.setWaiting f).fault = s.fault := rfl
@[simp] theorem State.setWaiting_mem (s : State) (f : Option (List Byte)) : (s.setWaiting f).mem = s.mem := rfl
@[simp] theorem State.setWaiting_sinkHistory (s : State) (f : Option (List Byte)) : (s.setWaiting f).sinkHistory = s.sinkHistory := rfl
@[simp] theorem State.setWaiting_waiting (s : State) (f : Option (List Byte)) : (s.setWaiting f).waiting = f := rfl
@[simp] theorem State.setWaiting_sinkReplies (s : State) (f : Option (List Byte)) : (s.setWaiting f).sinkReplies = s.sinkReplies := rfl
@[simp] theorem State.setWaiting_sinkCount (s : State) (f : Option (List Byte)) : (s.setWaiting f).sinkCount = s.sinkCount := rfl
@[simp] theorem State.setWaiting_inputs (s : State) (f : Option (List Byte)) : (s.setWaiting f).inputs = s.inputs := rfl
@[simp] theorem State.setWaiting_observed (s : State) (f : Option (List Byte)) : (s.setWaiting f).observed = s.observed := rfl

/-! ### setInputs -/

@[simp] theorem State.setInputs_cfg (s : State) (l : List Input) : (s.setInputs l).cfg = s.cfg := rfl
@[simp] theorem State.setInputs_powerOn (s : State) (l : List Input) : (s.setInputs l).powerOn = s.powerOn := rfl
@[simp] theorem State.setInputs_srcPtr (s : State) (l : List Input) : (s.setInputs l).srcPtr = s.srcPtr := rfl
@[simp] theorem State.setInputs_srcLen (s : State) (l : List Input) : (s.setInputs l).srcLen = s.srcLen := rfl
@[simp] theorem State.setInputs_dstPtr (s : State) (l : List Input) : (s.setInputs l).dstPtr = s.dstPtr := rfl
@[simp] theorem State.setInputs_dstCap (s : State) (l : List Input) : (s.setInputs l).dstCap = s.dstCap := rfl
@[simp] theorem State.setInputs_outLen (s : State) (l : List Input) : (s.setInputs l).outLen = s.outLen := rfl
@[simp] theorem State.setInputs_outAux (s : State) (l : List Input) : (s.setInputs l).outAux = s.outAux := rfl
@[simp] theorem State.setInputs_frAddr (s : State) (l : List Input) : (s.setInputs l).frAddr = s.frAddr := rfl
@[simp] theorem State.setInputs_frCtrl (s : State) (l : List Input) : (s.setInputs l).frCtrl = s.frCtrl := rfl
@[simp] theorem State.setInputs_pktType (s : State) (l : List Input) : (s.setInputs l).pktType = s.pktType := rfl
@[simp] theorem State.setInputs_pktChannel (s : State) (l : List Input) : (s.setInputs l).pktChannel = s.pktChannel := rfl
@[simp] theorem State.setInputs_pktService (s : State) (l : List Input) : (s.setInputs l).pktService = s.pktService := rfl
@[simp] theorem State.setInputs_pktMethod (s : State) (l : List Input) : (s.setInputs l).pktMethod = s.pktMethod := rfl
@[simp] theorem State.setInputs_pktStatus (s : State) (l : List Input) : (s.setInputs l).pktStatus = s.pktStatus := rfl
@[simp] theorem State.setInputs_pktPayPtr (s : State) (l : List Input) : (s.setInputs l).pktPayPtr = s.pktPayPtr := rfl
@[simp] theorem State.setInputs_pktPayLen (s : State) (l : List Input) : (s.setInputs l).pktPayLen = s.pktPayLen := rfl
@[simp] theorem State.setInputs_result (s : State) (l : List Input) : (s.setInputs l).result = s.result := rfl
@[simp] theorem State.setInputs_acquired (s : State) (l : List Input) : (s.setInputs l).acquired = s.acquired := rfl
@[simp] theorem State.setInputs_fault (s : State) (l : List Input) : (s.setInputs l).fault = s.fault := rfl
@[simp] theorem State.setInputs_mem (s : State) (l : List Input) : (s.setInputs l).mem = s.mem := rfl
@[simp] theorem State.setInputs_sinkHistory (s : State) (l : List Input) : (s.setInputs l).sinkHistory = s.sinkHistory := rfl
@[simp] theorem State.setInputs_waiting (s : State) (l : List Input) : (s.setInputs l).waiting = s.waiting := rfl
@[simp] theorem State.setInputs_sinkReplies (s : State) (l : List Input) : (s.setInputs l).sinkReplies = s.sinkReplies := rfl
@[simp] theorem State.setInputs_sinkCount (s : State) (l : List Input) : (s.setInputs l).sinkCount = s.sinkCount := rfl
@[simp] theorem State.setInputs_inputs (s : State) (l : List Input) : (s.setInputs l).inputs = l := rfl
@[simp] theorem State.setInputs_observed (s : State) (l : List Input) : (s.setInputs l).observed = s.observed := rfl

/-! ### observe -/

@[simp] theorem State.observe_cfg (s : State) (o : Observation) : (s.observe o).cfg = s.cfg := rfl
@[simp] theorem State.observe_powerOn (s : State) (o : Observation) : (s.observe o).powerOn = s.powerOn := rfl
@[simp] theorem State.observe_srcPtr (s : State) (o : Observation) : (s.observe o).srcPtr = s.srcPtr := rfl
@[simp] theorem State.observe_srcLen (s : State) (o : Observation) : (s.observe o).srcLen = s.srcLen := rfl
@[simp] theorem State.observe_dstPtr (s : State) (o : Observation) : (s.observe o).dstPtr = s.dstPtr := rfl
@[simp] theorem State.observe_dstCap (s : State) (o : Observation) : (s.observe o).dstCap = s.dstCap := rfl
@[simp] theorem State.observe_outLen (s : State) (o : Observation) : (s.observe o).outLen = s.outLen := rfl
@[simp] theorem State.observe_outAux (s : State) (o : Observation) : (s.observe o).outAux = s.outAux := rfl
@[simp] theorem State.observe_frAddr (s : State) (o : Observation) : (s.observe o).frAddr = s.frAddr := rfl
@[simp] theorem State.observe_frCtrl (s : State) (o : Observation) : (s.observe o).frCtrl = s.frCtrl := rfl
@[simp] theorem State.observe_pktType (s : State) (o : Observation) : (s.observe o).pktType = s.pktType := rfl
@[simp] theorem State.observe_pktChannel (s : State) (o : Observation) : (s.observe o).pktChannel = s.pktChannel := rfl
@[simp] theorem State.observe_pktService (s : State) (o : Observation) : (s.observe o).pktService = s.pktService := rfl
@[simp] theorem State.observe_pktMethod (s : State) (o : Observation) : (s.observe o).pktMethod = s.pktMethod := rfl
@[simp] theorem State.observe_pktStatus (s : State) (o : Observation) : (s.observe o).pktStatus = s.pktStatus := rfl
@[simp] theorem State.observe_pktPayPtr (s : State) (o : Observation) : (s.observe o).pktPayPtr = s.pktPayPtr := rfl
@[simp] theorem State.observe_pktPayLen (s : State) (o : Observation) : (s.observe o).pktPayLen = s.pktPayLen := rfl
@[simp] theorem State.observe_result (s : State) (o : Observation) : (s.observe o).result = s.result := rfl
@[simp] theorem State.observe_acquired (s : State) (o : Observation) : (s.observe o).acquired = s.acquired := rfl
@[simp] theorem State.observe_fault (s : State) (o : Observation) : (s.observe o).fault = s.fault := rfl
@[simp] theorem State.observe_mem (s : State) (o : Observation) : (s.observe o).mem = s.mem := rfl
@[simp] theorem State.observe_sinkHistory (s : State) (o : Observation) : (s.observe o).sinkHistory = s.sinkHistory := rfl
@[simp] theorem State.observe_waiting (s : State) (o : Observation) : (s.observe o).waiting = s.waiting := rfl
@[simp] theorem State.observe_sinkReplies (s : State) (o : Observation) : (s.observe o).sinkReplies = s.sinkReplies := rfl
@[simp] theorem State.observe_sinkCount (s : State) (o : Observation) : (s.observe o).sinkCount = s.sinkCount := rfl
@[simp] theorem State.observe_inputs (s : State) (o : Observation) : (s.observe o).inputs = s.inputs := rfl
@[simp] theorem State.observe_observed (s : State) (o : Observation) : (s.observe o).observed = s.observed ++ [o] := rfl

/-! ### setEnvelope -/

@[simp] theorem State.setEnvelope_cfg (s : State) (e : Envelope) (p : Option Nat) : (s.setEnvelope e p).cfg = s.cfg := rfl
@[simp] theorem State.setEnvelope_powerOn (s : State) (e : Envelope) (p : Option Nat) : (s.setEnvelope e p).powerOn = s.powerOn := rfl
@[simp] theorem State.setEnvelope_srcPtr (s : State) (e : Envelope) (p : Option Nat) : (s.setEnvelope e p).srcPtr = s.srcPtr := rfl
@[simp] theorem State.setEnvelope_srcLen (s : State) (e : Envelope) (p : Option Nat) : (s.setEnvelope e p).srcLen = s.srcLen := rfl
@[simp] theorem State.setEnvelope_dstPtr (s : State) (e : Envelope) (p : Option Nat) : (s.setEnvelope e p).dstPtr = s.dstPtr := rfl
@[simp] theorem State.setEnvelope_dstCap (s : State) (e : Envelope) (p : Option Nat) : (s.setEnvelope e p).dstCap = s.dstCap := rfl
@[simp] theorem State.setEnvelope_outLen (s : State) (e : Envelope) (p : Option Nat) : (s.setEnvelope e p).outLen = s.outLen := rfl
@[simp] theorem State.setEnvelope_outAux (s : State) (e : Envelope) (p : Option Nat) : (s.setEnvelope e p).outAux = s.outAux := rfl
@[simp] theorem State.setEnvelope_frAddr (s : State) (e : Envelope) (p : Option Nat) : (s.setEnvelope e p).frAddr = s.frAddr := rfl
@[simp] theorem State.setEnvelope_frCtrl (s : State) (e : Envelope) (p : Option Nat) : (s.setEnvelope e p).frCtrl = s.frCtrl := rfl
@[simp] theorem State.setEnvelope_pktType (s : State) (e : Envelope) (p : Option Nat) : (s.setEnvelope e p).pktType = e.type := rfl
@[simp] theorem State.setEnvelope_pktChannel (s : State) (e : Envelope) (p : Option Nat) : (s.setEnvelope e p).pktChannel = e.channelId := rfl
@[simp] theorem State.setEnvelope_pktService (s : State) (e : Envelope) (p : Option Nat) : (s.setEnvelope e p).pktService = e.serviceId := rfl
@[simp] theorem State.setEnvelope_pktMethod (s : State) (e : Envelope) (p : Option Nat) : (s.setEnvelope e p).pktMethod = e.methodId := rfl
@[simp] theorem State.setEnvelope_pktStatus (s : State) (e : Envelope) (p : Option Nat) : (s.setEnvelope e p).pktStatus = e.status := rfl
@[simp] theorem State.setEnvelope_pktPayPtr (s : State) (e : Envelope) (p : Option Nat) : (s.setEnvelope e p).pktPayPtr = (match p with | none => s.srcPtr | some n => BitVec.ofNat 32 (s.srcPtr.toNat + n)) := rfl
@[simp] theorem State.setEnvelope_pktPayLen (s : State) (e : Envelope) (p : Option Nat) : (s.setEnvelope e p).pktPayLen = BitVec.ofNat 32 e.payload.length := rfl
@[simp] theorem State.setEnvelope_result (s : State) (e : Envelope) (p : Option Nat) : (s.setEnvelope e p).result = s.result := rfl
@[simp] theorem State.setEnvelope_acquired (s : State) (e : Envelope) (p : Option Nat) : (s.setEnvelope e p).acquired = s.acquired := rfl
@[simp] theorem State.setEnvelope_fault (s : State) (e : Envelope) (p : Option Nat) : (s.setEnvelope e p).fault = s.fault := rfl
@[simp] theorem State.setEnvelope_mem (s : State) (e : Envelope) (p : Option Nat) : (s.setEnvelope e p).mem = s.mem := rfl
@[simp] theorem State.setEnvelope_sinkHistory (s : State) (e : Envelope) (p : Option Nat) : (s.setEnvelope e p).sinkHistory = s.sinkHistory := rfl
@[simp] theorem State.setEnvelope_waiting (s : State) (e : Envelope) (p : Option Nat) : (s.setEnvelope e p).waiting = s.waiting := rfl
@[simp] theorem State.setEnvelope_sinkReplies (s : State) (e : Envelope) (p : Option Nat) : (s.setEnvelope e p).sinkReplies = s.sinkReplies := rfl
@[simp] theorem State.setEnvelope_sinkCount (s : State) (e : Envelope) (p : Option Nat) : (s.setEnvelope e p).sinkCount = s.sinkCount := rfl
@[simp] theorem State.setEnvelope_inputs (s : State) (e : Envelope) (p : Option Nat) : (s.setEnvelope e p).inputs = s.inputs := rfl
@[simp] theorem State.setEnvelope_observed (s : State) (e : Envelope) (p : Option Nat) : (s.setEnvelope e p).observed = s.observed := rfl

/-! ### memWrite -/

@[simp] theorem memWrite_cfg (s : State) (a : Nat) (v : List Byte) : (memWrite s a v).cfg = s.cfg := rfl
@[simp] theorem memWrite_powerOn (s : State) (a : Nat) (v : List Byte) : (memWrite s a v).powerOn = s.powerOn := rfl
@[simp] theorem memWrite_srcPtr (s : State) (a : Nat) (v : List Byte) : (memWrite s a v).srcPtr = s.srcPtr := rfl
@[simp] theorem memWrite_srcLen (s : State) (a : Nat) (v : List Byte) : (memWrite s a v).srcLen = s.srcLen := rfl
@[simp] theorem memWrite_dstPtr (s : State) (a : Nat) (v : List Byte) : (memWrite s a v).dstPtr = s.dstPtr := rfl
@[simp] theorem memWrite_dstCap (s : State) (a : Nat) (v : List Byte) : (memWrite s a v).dstCap = s.dstCap := rfl
@[simp] theorem memWrite_outLen (s : State) (a : Nat) (v : List Byte) : (memWrite s a v).outLen = s.outLen := rfl
@[simp] theorem memWrite_outAux (s : State) (a : Nat) (v : List Byte) : (memWrite s a v).outAux = s.outAux := rfl
@[simp] theorem memWrite_frAddr (s : State) (a : Nat) (v : List Byte) : (memWrite s a v).frAddr = s.frAddr := rfl
@[simp] theorem memWrite_frCtrl (s : State) (a : Nat) (v : List Byte) : (memWrite s a v).frCtrl = s.frCtrl := rfl
@[simp] theorem memWrite_pktType (s : State) (a : Nat) (v : List Byte) : (memWrite s a v).pktType = s.pktType := rfl
@[simp] theorem memWrite_pktChannel (s : State) (a : Nat) (v : List Byte) : (memWrite s a v).pktChannel = s.pktChannel := rfl
@[simp] theorem memWrite_pktService (s : State) (a : Nat) (v : List Byte) : (memWrite s a v).pktService = s.pktService := rfl
@[simp] theorem memWrite_pktMethod (s : State) (a : Nat) (v : List Byte) : (memWrite s a v).pktMethod = s.pktMethod := rfl
@[simp] theorem memWrite_pktStatus (s : State) (a : Nat) (v : List Byte) : (memWrite s a v).pktStatus = s.pktStatus := rfl
@[simp] theorem memWrite_pktPayPtr (s : State) (a : Nat) (v : List Byte) : (memWrite s a v).pktPayPtr = s.pktPayPtr := rfl
@[simp] theorem memWrite_pktPayLen (s : State) (a : Nat) (v : List Byte) : (memWrite s a v).pktPayLen = s.pktPayLen := rfl
@[simp] theorem memWrite_result (s : State) (a : Nat) (v : List Byte) : (memWrite s a v).result = s.result := rfl
@[simp] theorem memWrite_acquired (s : State) (a : Nat) (v : List Byte) : (memWrite s a v).acquired = s.acquired := rfl
@[simp] theorem memWrite_fault (s : State) (a : Nat) (v : List Byte) : (memWrite s a v).fault = s.fault := rfl
@[simp] theorem memWrite_mem (s : State) (a : Nat) (v : List Byte) : (memWrite s a v).mem = Memory.storeBytes s.mem a v := rfl
@[simp] theorem memWrite_sinkHistory (s : State) (a : Nat) (v : List Byte) : (memWrite s a v).sinkHistory = s.sinkHistory := rfl
@[simp] theorem memWrite_waiting (s : State) (a : Nat) (v : List Byte) : (memWrite s a v).waiting = s.waiting := rfl
@[simp] theorem memWrite_sinkReplies (s : State) (a : Nat) (v : List Byte) : (memWrite s a v).sinkReplies = s.sinkReplies := rfl
@[simp] theorem memWrite_sinkCount (s : State) (a : Nat) (v : List Byte) : (memWrite s a v).sinkCount = s.sinkCount := rfl
@[simp] theorem memWrite_inputs (s : State) (a : Nat) (v : List Byte) : (memWrite s a v).inputs = s.inputs := rfl
@[simp] theorem memWrite_observed (s : State) (a : Nat) (v : List Byte) : (memWrite s a v).observed = s.observed := rfl

/-! ### applyReset -/

@[simp] theorem applyReset_cfg (s : State) : (applyReset s).cfg = s.cfg := rfl
@[simp] theorem applyReset_powerOn (s : State) : (applyReset s).powerOn = s.powerOn := rfl
@[simp] theorem applyReset_srcPtr (s : State) : (applyReset s).srcPtr = 0#32 := rfl
@[simp] theorem applyReset_srcLen (s : State) : (applyReset s).srcLen = 0#32 := rfl
@[simp] theorem applyReset_dstPtr (s : State) : (applyReset s).dstPtr = 0#32 := rfl
@[simp] theorem applyReset_dstCap (s : State) : (applyReset s).dstCap = 0#32 := rfl
@[simp] theorem applyReset_outLen (s : State) : (applyReset s).outLen = 0#32 := rfl
@[simp] theorem applyReset_outAux (s : State) : (applyReset s).outAux = 0#32 := rfl
@[simp] theorem applyReset_frAddr (s : State) : (applyReset s).frAddr = 0#8 := rfl
@[simp] theorem applyReset_frCtrl (s : State) : (applyReset s).frCtrl = 0#8 := rfl
@[simp] theorem applyReset_pktType (s : State) : (applyReset s).pktType = 0#32 := rfl
@[simp] theorem applyReset_pktChannel (s : State) : (applyReset s).pktChannel = 0#32 := rfl
@[simp] theorem applyReset_pktService (s : State) : (applyReset s).pktService = 0#32 := rfl
@[simp] theorem applyReset_pktMethod (s : State) : (applyReset s).pktMethod = 0#32 := rfl
@[simp] theorem applyReset_pktStatus (s : State) : (applyReset s).pktStatus = 0#32 := rfl
@[simp] theorem applyReset_pktPayPtr (s : State) : (applyReset s).pktPayPtr = 0#32 := rfl
@[simp] theorem applyReset_pktPayLen (s : State) : (applyReset s).pktPayLen = 0#32 := rfl
@[simp] theorem applyReset_result (s : State) : (applyReset s).result = .ok := rfl
@[simp] theorem applyReset_acquired (s : State) : (applyReset s).acquired = false := rfl
@[simp] theorem applyReset_fault (s : State) : (applyReset s).fault = false := rfl
@[simp] theorem applyReset_mem (s : State) : (applyReset s).mem = s.mem := rfl
@[simp] theorem applyReset_sinkHistory (s : State) : (applyReset s).sinkHistory = [] := rfl
@[simp] theorem applyReset_waiting (s : State) : (applyReset s).waiting = none := rfl
@[simp] theorem applyReset_sinkReplies (s : State) : (applyReset s).sinkReplies = s.sinkReplies := rfl
@[simp] theorem applyReset_sinkCount (s : State) : (applyReset s).sinkCount = s.sinkCount := rfl
@[simp] theorem applyReset_inputs (s : State) : (applyReset s).inputs = s.inputs := rfl
@[simp] theorem applyReset_observed (s : State) : (applyReset s).observed = s.observed := rfl

/-! ### resetWith -/

@[simp] theorem State.resetWith_cfg (c : Config) (p : Nat) : (State.resetWith c p).cfg = c := rfl
@[simp] theorem State.resetWith_powerOn (c : Config) (p : Nat) : (State.resetWith c p).powerOn = p := rfl
@[simp] theorem State.resetWith_srcPtr (c : Config) (p : Nat) : (State.resetWith c p).srcPtr = 0#32 := rfl
@[simp] theorem State.resetWith_srcLen (c : Config) (p : Nat) : (State.resetWith c p).srcLen = 0#32 := rfl
@[simp] theorem State.resetWith_dstPtr (c : Config) (p : Nat) : (State.resetWith c p).dstPtr = 0#32 := rfl
@[simp] theorem State.resetWith_dstCap (c : Config) (p : Nat) : (State.resetWith c p).dstCap = 0#32 := rfl
@[simp] theorem State.resetWith_outLen (c : Config) (p : Nat) : (State.resetWith c p).outLen = 0#32 := rfl
@[simp] theorem State.resetWith_outAux (c : Config) (p : Nat) : (State.resetWith c p).outAux = 0#32 := rfl
@[simp] theorem State.resetWith_frAddr (c : Config) (p : Nat) : (State.resetWith c p).frAddr = 0#8 := rfl
@[simp] theorem State.resetWith_frCtrl (c : Config) (p : Nat) : (State.resetWith c p).frCtrl = 0#8 := rfl
@[simp] theorem State.resetWith_pktType (c : Config) (p : Nat) : (State.resetWith c p).pktType = 0#32 := rfl
@[simp] theorem State.resetWith_pktChannel (c : Config) (p : Nat) : (State.resetWith c p).pktChannel = 0#32 := rfl
@[simp] theorem State.resetWith_pktService (c : Config) (p : Nat) : (State.resetWith c p).pktService = 0#32 := rfl
@[simp] theorem State.resetWith_pktMethod (c : Config) (p : Nat) : (State.resetWith c p).pktMethod = 0#32 := rfl
@[simp] theorem State.resetWith_pktStatus (c : Config) (p : Nat) : (State.resetWith c p).pktStatus = 0#32 := rfl
@[simp] theorem State.resetWith_pktPayPtr (c : Config) (p : Nat) : (State.resetWith c p).pktPayPtr = 0#32 := rfl
@[simp] theorem State.resetWith_pktPayLen (c : Config) (p : Nat) : (State.resetWith c p).pktPayLen = 0#32 := rfl
@[simp] theorem State.resetWith_result (c : Config) (p : Nat) : (State.resetWith c p).result = .ok := rfl
@[simp] theorem State.resetWith_acquired (c : Config) (p : Nat) : (State.resetWith c p).acquired = false := rfl
@[simp] theorem State.resetWith_fault (c : Config) (p : Nat) : (State.resetWith c p).fault = false := rfl
@[simp] theorem State.resetWith_mem (c : Config) (p : Nat) : (State.resetWith c p).mem = [] := rfl
@[simp] theorem State.resetWith_sinkHistory (c : Config) (p : Nat) : (State.resetWith c p).sinkHistory = [] := rfl
@[simp] theorem State.resetWith_waiting (c : Config) (p : Nat) : (State.resetWith c p).waiting = none := rfl
@[simp] theorem State.resetWith_sinkReplies (c : Config) (p : Nat) : (State.resetWith c p).sinkReplies = [] := rfl
@[simp] theorem State.resetWith_sinkCount (c : Config) (p : Nat) : (State.resetWith c p).sinkCount = 0 := rfl
@[simp] theorem State.resetWith_inputs (c : Config) (p : Nat) : (State.resetWith c p).inputs = [] := rfl
@[simp] theorem State.resetWith_observed (c : Config) (p : Nat) : (State.resetWith c p).observed = [] := rfl

end Sys2Proof.Machine
end

