-- ==== Sys2Proof/Laws/Memory.lean ====
section
/-! SUPPORT. The laws of MEM: a read after a write, the bytes a write leaves alone, and the canonical form, which every
memory operation keeps. -/

namespace Sys2Proof.Machine

/-! ### One byte -/

theorem Memory.lookup_store (m : Memory) (a x : Nat) (b : Byte) :
    Memory.lookup (Memory.store m a b) x = if a = x then some b else Memory.lookup m x := by
  induction m with
  | nil => simp [Memory.store, Memory.lookup]
  | cons c m ih =>
    obtain ⟨a', b'⟩ := c
    simp only [Memory.store]
    split
    · simp [Memory.lookup]
    · split
      · next h => subst h; simp only [Memory.lookup]; split <;> simp_all
      · simp only [Memory.lookup, ih]; split <;> split <;> simp_all

theorem Memory.mem_store {m : Memory} {a : Nat} {b : Byte} {x : Host.Cell} (h : x ∈ Memory.store m a b) :
    x = (a, b) ∨ x ∈ m := by
  induction m with
  | nil => simpa [Memory.store] using h
  | cons c m ih =>
    obtain ⟨a', b'⟩ := c
    simp only [Memory.store] at h
    split at h
    · simpa using h
    · split at h
      · rcases List.mem_cons.1 h with h | h
        · exact .inl h
        · exact .inr (List.mem_cons_of_mem _ h)
      · rcases List.mem_cons.1 h with h | h
        · exact .inr (by simp [h])
        · rcases ih h with h | h
          · exact .inl h
          · exact .inr (List.mem_cons_of_mem _ h)

/-- A one-byte write keeps the canonical form. -/
theorem Memory.store_wf {m : Memory} (a : Nat) (b : Byte) (h : Memory.wf m) : Memory.wf (Memory.store m a b) := by
  induction m with
  | nil => simp [Memory.store, Memory.wf]
  | cons c m ih =>
    obtain ⟨a', b'⟩ := c
    obtain ⟨hlt, hm⟩ := List.pairwise_cons.1 h
    simp only [Memory.store]
    split
    · next hlt' =>
      refine List.pairwise_cons.2 ⟨fun x hx => ?_, h⟩
      rcases List.mem_cons.1 hx with rfl | hx
      · exact hlt'
      · exact Nat.lt_trans hlt' (hlt x hx)
    · split
      · next heq => subst heq; exact List.pairwise_cons.2 ⟨hlt, hm⟩
      · next h1 h2 =>
        refine List.pairwise_cons.2 ⟨fun x hx => ?_, ih hm⟩
        rcases Memory.mem_store hx with rfl | hx
        · exact show a' < a by omega
        · exact hlt x hx

/-! ### Byte sequences -/

theorem Memory.storeBytes_wf {m : Memory} (a : Nat) (v : List Byte) (h : Memory.wf m) :
    Memory.wf (Memory.storeBytes m a v) := by
  induction v generalizing m a with
  | nil => exact h
  | cons b v ih => exact ih (a + 1) (Memory.store_wf a b h)

theorem Memory.mem_storeBytes {m : Memory} {a : Nat} {v : List Byte} {x : Host.Cell}
    (h : x ∈ Memory.storeBytes m a v) : x ∈ m ∨ (a ≤ x.1 ∧ x.1 < a + v.length) := by
  induction v generalizing m a with
  | nil => exact .inl h
  | cons b v ih =>
    rcases ih h with h | ⟨h1, h2⟩
    · rcases Memory.mem_store h with rfl | h
      · exact .inr ⟨Nat.le_refl a, by simp⟩
      · exact .inl h
    · exact .inr ⟨by omega, by simp only [List.length_cons]; omega⟩

theorem Memory.lookup_storeBytes_outside (m : Memory) (a x : Nat) (v : List Byte)
    (h : ¬ (a ≤ x ∧ x < a + v.length)) : Memory.lookup (Memory.storeBytes m a v) x = Memory.lookup m x := by
  induction v generalizing m a with
  | nil => rfl
  | cons b v ih =>
    simp only [List.length_cons] at h
    rw [Memory.storeBytes, ih (Memory.store m a b) (a + 1) (by omega), Memory.lookup_store, if_neg (by omega)]

theorem Memory.lookup_storeBytes_inside (m : Memory) (a i : Nat) (v : List Byte) (h : i < v.length) :
    Memory.lookup (Memory.storeBytes m a v) (a + i) = some v[i] := by
  induction v generalizing m a i with
  | nil => simp at h
  | cons b v ih =>
    rw [Memory.storeBytes]
    cases i with
    | zero =>
      rw [Memory.lookup_storeBytes_outside _ _ _ _ (by omega), Memory.lookup_store]
      simp
    | succ i =>
      have := ih (Memory.store m a b) (a + 1) i (by simpa using h)
      rw [show a + (i + 1) = a + 1 + i by omega, this]
      simp

/-! ### Reads of the state -/

/-- Two states with the same MEM of the same power-on read the same bytes. -/
theorem readByte_congr {s t : State} (hm : t.mem = s.mem) (hp : t.powerOn = s.powerOn) (a : Nat) :
    readByte t a = readByte s a := by simp [readByte, unwrittenByte, hm, hp]

theorem memRead_congr {s t : State} {a n : Nat} (h : ∀ x, a ≤ x → x < a + n → readByte t x = readByte s x) :
    memRead t a n = memRead s a n := by
  induction n generalizing a with
  | zero => rfl
  | succ n ih =>
    rw [memRead, memRead, h a (Nat.le_refl a) (by omega), ih fun x h1 h2 => h x (by omega) (by omega)]

/-- Two states with the same MEM of the same power-on read the same byte sequences. -/
theorem memRead_congr_mem {s t : State} (hm : t.mem = s.mem) (hp : t.powerOn = s.powerOn) (a n : Nat) :
    memRead t a n = memRead s a n := memRead_congr fun x _ _ => readByte_congr hm hp x

@[simp] theorem memRead_length (s : State) (a n : Nat) : (memRead s a n).length = n := by
  induction n generalizing a with
  | zero => rfl
  | succ n ih => simp [memRead, ih]

@[simp] theorem srcBytes_length (s : State) : (srcBytes s).length = s.srcLen.toNat := memRead_length ..
@[simp] theorem pktPayload_length (s : State) : (pktPayload s).length = s.pktPayLen.toNat := memRead_length ..
@[simp] theorem usedBytes_length (s : State) : (usedBytes s).length = s.srcLen.toNat := memRead_length ..

/-- MemWrite changes MEM and nothing else. -/
theorem memWrite_eq (s : State) (a : Nat) (v : List Byte) :
    memWrite s a v = { s with mem := Memory.storeBytes s.mem a v } := rfl

theorem readByte_memWrite_outside (s : State) (a x : Nat) (v : List Byte) (h : ¬ (a ≤ x ∧ x < a + v.length)) :
    readByte (memWrite s a v) x = readByte s x := by
  simp [readByte, unwrittenByte, memWrite, Memory.lookup_storeBytes_outside _ _ _ _ h]

theorem readByte_memWrite_inside (s : State) (a i : Nat) (v : List Byte) (h : i < v.length) :
    readByte (memWrite s a v) (a + i) = v[i] := by
  simp [readByte, memWrite, Memory.lookup_storeBytes_inside _ _ _ _ h]

/-- A byte of MemRead is the byte at its address. -/
theorem memRead_getElem (s : State) (a n i : Nat) (h : i < (memRead s a n).length) :
    (memRead s a n)[i] = readByte s (a + i) := by
  induction n generalizing a i with
  | zero => simp at h
  | succ n ih =>
    cases i with
    | zero => rfl
    | succ i =>
      simp only [memRead, List.getElem_cons_succ]
      rw [ih (a + 1) i (by simpa using h)]
      congr 1; omega

/-- MemRead of what MemWrite has written gives it back. -/
theorem memRead_memWrite_same (s : State) (a : Nat) (v : List Byte) : memRead (memWrite s a v) a v.length = v := by
  refine List.ext_getElem (memRead_length ..) fun i h1 h2 => ?_
  rw [memRead_getElem, readByte_memWrite_inside _ _ _ _ h2]

end Sys2Proof.Machine
end

