-- ==== Sys2Proof/Laws/Ops.lean ====
section
/-! SUPPORT. What each shared operation can do, said once: how a command ends, the capacity check, the sink port, the
range check and the register map. -/

namespace Sys2Proof.Machine

/-! ### How a command ends -/

@[simp] theorem finish_next (s t : State) : finish s = .next t ↔ t = s.setResult .ok := by
  simp [finish, eq_comm]

@[simp] theorem raise_next (r : Result) (s t : State) : raise r s = .next t ↔ t = s.setResult r := by
  simp [raise, eq_comm]

@[simp] theorem contractViolation_next (s t : State) :
    contractViolation s = .next t ↔ t = (s.setFault true).setResult .contractViolation := by
  simp [contractViolation]

/-- A faulted block answers FAULTED; an unfaulted one runs the command. -/
theorem withPrologue_next {body : State → Answer} {s t : State} (h : withPrologue body s = .next t) :
    (s.fault = true ∧ t = s.setResult .faulted) ∨ (s.fault = false ∧ body s = .next t) := by
  unfold withPrologue at h
  split at h
  · exact .inl ⟨‹_›, by simpa using h⟩
  · exact .inr ⟨by simpa using ‹¬ s.fault = true›, h⟩

@[simp] theorem withPrologue_faulted {body : State → Answer} {s : State} (h : s.fault = true) :
    withPrologue body s = .next (s.setResult .faulted) := by
  simp [withPrologue, h, raise]

@[simp] theorem withPrologue_ready {body : State → Answer} {s : State} (h : s.fault = false) :
    withPrologue body s = body s := by
  simp [withPrologue, h]

/-- Everything the shared end of FENC, FDEC and PENC can do. -/
theorem deliver_next {out : List Byte} {more : State → State} {s t : State} (h : deliver out more s = .next t) :
    (s.dstCap.toNat < out.length ∧ t = (s.setOutLen (saturate out.length)).setResult .bufferTooSmall) ∨
    (out.length ≤ s.dstCap.toNat ∧
      t = ((more (memWrite s s.dstPtr.toNat out)).setOutLen (BitVec.ofNat 32 out.length)).setResult .ok) := by
  unfold deliver at h
  split at h
  · exact .inl ⟨‹_›, by simpa using h⟩
  · exact .inr ⟨by omega, by simpa using h⟩

theorem deliver_fits {out : List Byte} {more : State → State} {s : State} (h : out.length ≤ s.dstCap.toNat) :
    deliver out more s =
      .next (((more (memWrite s s.dstPtr.toNat out)).setOutLen (BitVec.ofNat 32 out.length)).setResult .ok) := by
  simp [deliver, finish, Nat.not_lt.2 h]

/-- What MEM reads as once `out` has been stored, when what is done after the store keeps MEM: `out` where it was stored,
every other byte as before. -/
theorem reads_after_store {out : List Byte} {s t : State} (a : Nat) (hm : t.mem = (memWrite s a out).mem)
    (hp : t.powerOn = s.powerOn) :
    memRead t a out.length = out ∧ ∀ x, ¬ (a ≤ x ∧ x < a + out.length) → readByte t x = readByte s x :=
  ⟨(memRead_congr_mem hm hp ..).trans (memRead_memWrite_same s a out),
   fun x hx => (readByte_congr hm hp x).trans (readByte_memWrite_outside s a x out hx)⟩

theorem deliver_tooSmall {out : List Byte} {more : State → State} {s : State} (h : s.dstCap.toNat < out.length) :
    deliver out more s = .next ((s.setOutLen (saturate out.length)).setResult .bufferTooSmall) := by
  simp [deliver, raise, h]

/-- Everything the sink port can do: no answer, Ok or Err. -/
theorem sinkWriteAndRelease_next {f : List Byte} {s t : State} (h : sinkWriteAndRelease f s = .next t) :
    (sinkAnswer f (sinkReply s) = none ∧ t = s.takeReply.setWaiting (some f)) ∨
    (∃ a, sinkAnswer f (sinkReply s) = some a ∧
      t = (((s.takeReply.recordSink { frame := f, answer := a }).setAcquired false).setOutLen
        (BitVec.ofNat 32 f.length)).setResult (match a with | .ok => .ok | .err => .sinkError)) := by
  unfold sinkWriteAndRelease at h
  split at h
  · exact .inl ⟨‹_›, by simpa [eq_comm] using h⟩
  · next a ha =>
    refine .inr ⟨a, ha, ?_⟩
    cases a <;> simpa using h

theorem sinkAnswer_eq_none {f : List Byte} {r : SinkReply} : sinkAnswer f r = none ↔ r = .noAnswer := by
  cases r with
  | written n => simp only [sinkAnswer]; split <;> simp
  | error => simp [sinkAnswer]
  | noAnswer => simp [sinkAnswer]

theorem saturate_toNat (n : Nat) : (saturate n).toNat = min n 0xFFFFFFFF := by
  simp only [saturate, BitVec.toNat_ofNat]
  omega

/-! ### The register map -/

theorem regAt_regOffset (r : Reg) : regAt (regOffset r) = some r := by cases r <;> rfl

theorem regAt_eq_some {off : Nat} {r : Reg} (h : regAt off = some r) : off = regOffset r := by
  unfold regAt at h
  split at h <;> (cases h; try rfl)

theorem regAccessWf_regOffset (r : Reg) : regAccessWf 32 (regOffset r) = true := by cases r <;> rfl

@[simp] theorem readReg_setInputs (s : State) (l : List Input) (r : Reg) : readReg (s.setInputs l) r = readReg s r := by
  cases r <;> rfl

/-- A host register write changes operand registers alone. -/
theorem writeReg_frame (s : State) (v : Word) (r : Reg) :
    (writeReg s v r).cfg = s.cfg ∧ (writeReg s v r).powerOn = s.powerOn ∧ (writeReg s v r).outLen = s.outLen ∧
    (writeReg s v r).outAux = s.outAux ∧ (writeReg s v r).result = s.result ∧ (writeReg s v r).acquired = s.acquired ∧
    (writeReg s v r).fault = s.fault ∧ (writeReg s v r).mem = s.mem ∧ (writeReg s v r).sinkHistory = s.sinkHistory ∧
    (writeReg s v r).waiting = s.waiting ∧ (writeReg s v r).sinkReplies = s.sinkReplies ∧
    (writeReg s v r).sinkCount = s.sinkCount ∧ (writeReg s v r).inputs = s.inputs ∧
    (writeReg s v r).observed = s.observed := by
  cases r <;> simp [writeReg]

end Sys2Proof.Machine
end

