-- ==== Sys2Proof/Laws/Codec.lean ====
section
/-! SUPPORT. The small lemmas of the codec's definitions: escaping, unescaping, the frame's parts, varints and fields. -/

namespace Sys2Proof.Machine

/-! ### Frames -/

theorem esc_special {b : Byte} (h : b = FLAG ∨ b = ESC) : esc b = [ESC, b ^^^ MASK] := by simp [esc, h]

theorem esc_plain {b : Byte} (h1 : b ≠ FLAG) (h2 : b ≠ ESC) : esc b = [b] := by simp [esc, h1, h2]

@[simp] theorem escapeAll_nil : escapeAll [] = [] := rfl

theorem escapeAll_cons (b : Byte) (l : List Byte) : escapeAll (b :: l) = esc b ++ escapeAll l := rfl

theorem escapeAll_append (l m : List Byte) : escapeAll (l ++ m) = escapeAll l ++ escapeAll m := by
  simp [escapeAll]

@[simp] theorem fcs_length (l : List Byte) : (fcs l).length = 4 := rfl

@[simp] theorem frameRaw_length (a c : Byte) (p : List Byte) : (frameRaw a c p).length = p.length + 6 := by
  simp [frameRaw]

theorem frameEncode_eq (a c : Byte) (p : List Byte) :
    frameEncode a c p = FLAG :: (escapeAll (frameRaw a c p) ++ [FLAG]) := rfl

theorem frameEncode_length (a c : Byte) (p : List Byte) :
    (frameEncode a c p).length = (escapeAll (frameRaw a c p)).length + 2 := by
  simp [frameEncode]

theorem mask_mask (b : Byte) : b ^^^ MASK ^^^ MASK = b := by rw [BitVec.xor_assoc]; simp

@[simp] theorem unescape_nil : unescape [] = .ok [] := by rw [unescape.eq_def]

theorem unescape_flag (l : List Byte) : unescape (FLAG :: l) = .error .flagInBody := by
  rw [unescape.eq_def]; simp

theorem unescape_trailing : unescape [ESC] = .error .trailingEscape := by
  rw [unescape.eq_def]; simp [show ESC ≠ FLAG by decide]

theorem unescape_escapedFlag (l : List Byte) : unescape (ESC :: FLAG :: l) = .error .flagInBody := by
  rw [unescape.eq_def]; simp [show ESC ≠ FLAG by decide]

theorem unescape_escaped {n : Byte} (l : List Byte) (h : n ≠ FLAG) :
    unescape (ESC :: n :: l) = (unescape l).map fun raw => (n ^^^ MASK) :: raw := by
  rw [unescape.eq_def]
  simp only [show ESC ≠ FLAG by decide, h, if_false, if_true]
  cases unescape l <;> rfl

theorem unescape_plain {b : Byte} (l : List Byte) (h1 : b ≠ FLAG) (h2 : b ≠ ESC) :
    unescape (b :: l) = (unescape l).map fun raw => b :: raw := by
  rw [unescape.eq_def]
  simp only [h1, h2, if_false]
  cases unescape l <;> rfl

/-- Between two delimiters, frameDecode is unescaping and the checks on the unescaped bytes. -/
theorem frameDecode_delimited (inner : List Byte) :
    frameDecode (FLAG :: (inner ++ [FLAG])) =
      match unescape inner with
      | .error e => .error e
      | .ok raw => checkRaw raw := by
  have h : (FLAG :: (inner ++ [FLAG])).getLast? = some FLAG := by
    rw [show FLAG :: (inner ++ [FLAG]) = (FLAG :: inner) ++ [FLAG] from rfl, List.getLast?_concat]
  simp only [frameDecode, h, List.length_cons, List.length_append, List.head?_cons, List.tail_cons, List.dropLast_concat]
  exact (if_neg (by simp)).trans (by cases unescape inner <;> rfl)

/-! ### Varints and fields -/

theorem vencLoop_small {k v : Nat} (h : v < 0x80) : vencLoop k v = [BitVec.ofNat 8 v] := by
  cases k with
  | zero => rfl
  | succ k => rw [vencLoop, if_neg (by omega)]

theorem vencLoop_big {k v : Nat} (h : 0x80 ≤ v) :
    vencLoop (k + 1) v = BitVec.ofNat 8 (v % 0x80 + 0x80) :: vencLoop k (v / 0x80) := by
  rw [vencLoop, if_pos h]

/-- The bit forms that R84 writes are the arithmetic ones of vencLoop (30_encoding.md R84). -/
theorem low_group_eq (v : Nat) : v &&& 0x7F = v % 0x80 ∧ v >>> 7 = v / 0x80 :=
  ⟨Nat.and_two_pow_sub_one_eq_mod v 7, Nat.shiftRight_eq_div_pow v 7⟩

@[simp] theorem vdecLoop_nil (k v : Nat) : vdecLoop k v [] = none := rfl

@[simp] theorem optField_zero (key : Byte) : optField key 0 = [] := rfl

theorem optField_pos {key : Byte} {v : Nat} (h : v ≠ 0) : optField key v = field key v := by simp [optField, h]

@[simp] theorem payloadField_nil : payloadField [] = [] := rfl

@[simp] theorem fieldLoop_nil (total fuel : Nat) (x : Fields) : fieldLoop total fuel [] x = .ok x := by
  cases fuel <;> rfl

/-- One pass of the decoding loop on a byte to read. -/
theorem fieldLoop_cons (total fuel : Nat) (k : Byte) (rest : List Byte) (x : Fields) :
    fieldLoop total (fuel + 1) (k :: rest) x =
      match keyField k with
      | none => .error .key
      | some n =>
        if n ≤ x.last then .error .order
        else
          match vdec rest with
          | none => .error .varint
          | some (v, rest') =>
            match takeField total n v rest' x with
            | .error e => .error e
            | .ok (x', rest'') => fieldLoop total fuel rest'' x' := rfl

/-- A varint takes at least one byte. -/
theorem vdecLoop_shorter {l rest : List Byte} {k v w : Nat} (h : vdecLoop k v l = some (w, rest)) :
    rest.length < l.length := by
  induction l generalizing k v with
  | nil => simp at h
  | cons b l ih =>
    simp only [vdecLoop] at h
    split at h
    · cases h
    · split at h
      · split at h
        · cases h
        · simp only [Option.some.injEq, Prod.mk.injEq] at h; simp [h.2]
      · have := ih h; simp only [List.length_cons]; omega

/-- What a field leaves to read is no longer than what stood after its varint. -/
theorem takeField_shorter {total n v : Nat} {rest rest' : List Byte} {x x' : Fields}
    (h : takeField total n v rest x = .ok (x', rest')) : rest'.length ≤ rest.length := by
  unfold takeField at h
  split at h
  case h_3 | h_4 => cases h; exact Nat.le_refl _
  case h_7 => cases h
  case h_5 =>
    split at h
    · cases h
    · split at h
      · cases h
      · cases h; simp
  all_goals
    split at h
    · cases h
    · cases h; exact Nat.le_refl _

/-- The loop's fuel does not matter once it is at least the number of bytes to read: the last line of fieldLoop is not
reached (log 15). -/
theorem fieldLoop_fuel {total f g : Nat} {l : List Byte} {x : Fields} (hf : l.length ≤ f) (hg : l.length ≤ g) :
    fieldLoop total f l x = fieldLoop total g l x := by
  induction f generalizing g l x with
  | zero => rw [List.length_eq_zero_iff.1 (Nat.le_zero.1 hf)]; simp
  | succ f ih =>
    match l, g, hg with
    | [], _, _ => simp
    | k :: rest, g + 1, hg =>
      simp only [List.length_cons] at hf hg
      rw [fieldLoop_cons, fieldLoop_cons]
      cases keyField k with
      | none => rfl
      | some n =>
        simp only
        split
        · rfl
        · cases hv : vdec rest with
          | none => rfl
          | some p =>
            obtain ⟨v, rest'⟩ := p
            have h1 : rest'.length < rest.length := vdecLoop_shorter hv
            simp only
            cases ht : takeField total n v rest' x with
            | error e => rfl
            | ok q =>
              obtain ⟨x', rest''⟩ := q
              have h2 := takeField_shorter ht
              exact ih (by omega) (by omega)

end Sys2Proof.Machine
end

