-- ==== Sys2Proof/Laws/Exec.lean ====
section
/-! SUPPORT. What each command can do, said once: one inversion lemma per body, from which every claim about exec starts. -/

namespace Sys2Proof.Machine

/-- Everything FENC can do past the prologue. -/
theorem fencBody_next {s t : State} (h : fencBody s = .next t) :
    t = s.setResult .badRange ∨
    ((InRange s.cfg s.srcPtr s.srcLen ∧ InRange s.cfg s.dstPtr s.dstCap) ∧
      deliver (frameEncode s.frAddr s.frCtrl (srcBytes s)) id s = .next t) := by
  unfold fencBody at h
  split at h
  · exact .inl (by simpa using h)
  · next hr => exact .inr ⟨by simpa only [not_or, not_not] using hr, h⟩

/-- Everything FDEC can do past the prologue. -/
theorem fdecBody_next {s t : State} (h : fdecBody s = .next t) :
    t = s.setResult .badRange ∨
    ((InRange s.cfg s.srcPtr s.srcLen ∧ InRange s.cfg s.dstPtr s.dstCap) ∧
      ((∃ e, frameDecode (srcBytes s) = .error e ∧ t = s.setResult .corruptFrame) ∨
       ∃ d, frameDecode (srcBytes s) = .ok d ∧
        deliver d.payload (fun t => t.setFrameFields d.address d.control) s = .next t)) := by
  unfold fdecBody at h
  split at h
  · exact .inl (by simpa using h)
  · next hr =>
    refine .inr ⟨by simpa only [not_or, not_not] using hr, ?_⟩
    split at h
    · next e he => exact .inl ⟨e, he, by simpa using h⟩
    · next d hd => exact .inr ⟨d, hd, h⟩

/-- Everything PENC can do past the prologue. -/
theorem pencBody_next {s t : State} (h : pencBody s = .next t) :
    t = s.setResult .badRange ∨
    ((InRange s.cfg s.pktPayPtr s.pktPayLen ∧ InRange s.cfg s.dstPtr s.dstCap) ∧
      deliver (envelopeEncode (pktEnvelope s)) id s = .next t) := by
  unfold pencBody at h
  split at h
  · exact .inl (by simpa using h)
  · next hr => exact .inr ⟨by simpa only [not_or, not_not] using hr, h⟩

/-- Everything PDEC can do past the prologue. -/
theorem pdecBody_next {s t : State} (h : pdecBody s = .next t) :
    t = s.setResult .badRange ∨
    (InRange s.cfg s.srcPtr s.srcLen ∧
      ((∃ e, envelopeDecode (srcBytes s) = .error e ∧ t = s.setResult .malformedPacket) ∨
       ∃ e p, envelopeDecode (srcBytes s) = .ok (e, p) ∧
        t = ((s.setEnvelope e p).setOutLen s.srcLen).setResult .ok)) := by
  unfold pdecBody at h
  split at h
  · exact .inl (by simpa using h)
  · next hr =>
    refine .inr ⟨by simpa only [not_not] using hr, ?_⟩
    split at h
    · next e he => exact .inl ⟨e, he, by simpa using h⟩
    · next e p hd => exact .inr ⟨e, p, hd, by simpa using h⟩

/-- Everything PSIZE can do past the prologue. -/
theorem psizeBody_next {s t : State} (h : psizeBody s = .next t) :
    t = ((s.setOutLen (BitVec.ofNat 32 (minSize s.pktPayLen.toNat))).setOutAux
      (BitVec.ofNat 32 (maxSize s.pktPayLen.toNat))).setResult .ok := by
  simpa [psizeBody] using h

/-- Everything ACQ can do past the prologue. -/
theorem acqBody_next {s t : State} (h : acqBody s = .next t) :
    (s.acquired = true ∧ t = (s.setFault true).setResult .contractViolation) ∨
    (s.acquired = false ∧
      t = (((s.setAcquired true).setOutAux (BitVec.ofNat 32 s.cfg.chBufBase)).setOutLen
        (BitVec.ofNat 32 (cap s.cfg))).setResult .ok) := by
  unfold acqBody at h
  split at h
  · exact .inl ⟨‹_›, by simpa using h⟩
  · exact .inr ⟨by simpa using ‹¬ s.acquired = true›, by simpa using h⟩

/-- Everything REL can do past the prologue. -/
theorem relBody_next {s t : State} (h : relBody s = .next t) :
    ((s.acquired = false ∨ cap s.cfg < s.srcLen.toNat) ∧ t = (s.setFault true).setResult .contractViolation) ∨
    (s.acquired = true ∧ s.srcLen.toNat ≤ cap s.cfg ∧ sinkWriteAndRelease (relFrame s) s = .next t) := by
  unfold relBody at h
  split at h
  · exact .inl ⟨‹_›, by simpa using h⟩
  · next hr =>
    simp only [not_or, Bool.not_eq_false, Nat.not_lt] at hr
    exact .inr ⟨hr.1, hr.2, h⟩

/-- Every command answers a next state, from every state. -/
theorem exec_answers (i : Instr) (s : State) : ∃ t, exec i s = .next t := by
  by_cases hf : s.fault = true
  · exact ⟨s.setResult .faulted, by cases i <;> exact withPrologue_faulted hf⟩
  · replace hf : s.fault = false := by simpa using hf
    have hd : ∀ out more, ∃ t, deliver out more s = .next t := fun out more => by
      unfold deliver; split <;> simp [raise, finish]
    cases i <;> simp only [exec, execFenc, execFdec, execPenc, execPdec, execPsize, execAcq, execRel,
      withPrologue_ready hf]
    case fenc => unfold fencBody; split; exacts [⟨_, rfl⟩, hd ..]
    case fdec =>
      unfold fdecBody; split
      · exact ⟨_, rfl⟩
      · split; exacts [⟨_, rfl⟩, hd ..]
    case penc => unfold pencBody; split; exacts [⟨_, rfl⟩, hd ..]
    case pdec =>
      unfold pdecBody; split
      · exact ⟨_, rfl⟩
      · split <;> exact ⟨_, rfl⟩
    case psize => exact ⟨_, rfl⟩
    case acq => unfold acqBody; split <;> exact ⟨_, rfl⟩
    case rel =>
      unfold relBody; split
      · exact ⟨_, rfl⟩
      · unfold sinkWriteAndRelease; split
        · exact ⟨_, rfl⟩
        · split <;> exact ⟨_, rfl⟩

end Sys2Proof.Machine
end

