-- ==== Sys2Proof/Laws/PerInstr.lean ====
section
/-! SUPPORT. Facts about each command as syntax, one lemma per constructor. -/

namespace Sys2Proof.Laws.CommandWord

/-- The command word of a command keeps the reserved bits zero and has an opcode from 1 to 7 (30_encoding.md R70, R72). -/
def Statement (i : Instr) : Prop :=
  i.wf = true ∧ rsvdField (encode i) = 0#28 ∧ 1 ≤ (opcField (encode i)).toNat ∧ (opcField (encode i)).toNat ≤ 7

theorem fenc : Statement .fenc := by unfold Statement; decide
theorem fdec : Statement .fdec := by unfold Statement; decide
theorem penc : Statement .penc := by unfold Statement; decide
theorem pdec : Statement .pdec := by unfold Statement; decide
theorem psize : Statement .psize := by unfold Statement; decide
theorem acq : Statement .acq := by unfold Statement; decide
theorem rel : Statement .rel := by unfold Statement; decide

end Sys2Proof.Laws.CommandWord
end

