-- ==== Sys2Proof/Laws/Step.lean ====
section
/-! SUPPORT. What a step can do, said once: every case of it, by the block's being idle or waiting and by the next input. -/

namespace Sys2Proof.Machine

/-- Everything a write of a word to CMD can do. -/
theorem writeCmd_next {w : Word} {s t : State} (h : writeCmd w s = .next t) :
    (s.fault = true ∧ t = s.setResult .faulted) ∨
    (s.fault = false ∧ (∃ e, decode w = .error e) ∧ t = s.setResult .badCommand) ∨
    (s.fault = false ∧ ∃ i, decode w = .ok i ∧ exec i s = .next t) := by
  unfold writeCmd at h
  split at h
  · exact .inl ⟨‹_›, by simpa using h⟩
  · have hf : s.fault = false := by simpa using ‹¬ s.fault = true›
    split at h
    · next e he => exact .inr (.inl ⟨hf, ⟨e, he⟩, by simpa using h⟩)
    · next i hi => exact .inr (.inr ⟨hf, i, hi, h⟩)

/-- Everything a register write can do. -/
theorem writeOffset_next {off : Nat} {v : Word} {s t : State} (h : writeOffset off v s = .next t) :
    (regAt off = none ∧ t = s) ∨ (off = regOffset .cmd ∧ writeCmd v s = .next t) ∨
    (∃ r, r ≠ .cmd ∧ off = regOffset r ∧ t = writeReg s v r) := by
  unfold writeOffset at h
  split at h
  · next hn => exact .inl ⟨hn, by simpa [eq_comm] using h⟩
  · next hc => exact .inr (.inl ⟨regAt_eq_some hc, h⟩)
  · next r hne hr =>
    exact .inr (.inr ⟨r, hne, regAt_eq_some hr, by simpa [eq_comm] using h⟩)

/-- Everything that serving one input can do. -/
theorem serve_next {i : Input} {s t : State} (h : serve i s = .next t) :
    (∃ off v, i = .regWrite 32 off v ∧ regAccessWf 32 off = true ∧ writeOffset off v s = .next t) ∨
    (∃ off, i = .regRead 32 off ∧ regAccessWf 32 off = true ∧ t = s.observe (.reg off (readOffset s off))) ∨
    (∃ a b, i = .memWrite a b ∧ a < s.cfg.memSize ∧ t = memWrite s a [b]) ∨
    (∃ a, i = .memRead a ∧ a < s.cfg.memSize ∧ t = s.observe (.mem a (readByte s a))) ∨
    (i = .reset ∧ t = applyReset s) := by
  have width {w off : Nat} (hw : regAccessWf w off = true) : w = 32 := by
    simp only [regAccessWf, Bool.and_eq_true, decide_eq_true_eq] at hw
    exact hw.1.1
  cases i with
  | regWrite w off v =>
    simp only [serve] at h
    split at h
    · next hw => obtain rfl := width hw; exact .inl ⟨off, v, rfl, hw, h⟩
    · cases h
  | regRead w off =>
    simp only [serve] at h
    split at h
    · next hw => obtain rfl := width hw; exact .inr (.inl ⟨off, rfl, hw, by simpa [eq_comm] using h⟩)
    · cases h
  | memWrite a b =>
    simp only [serve] at h
    split at h
    · next ha => exact .inr (.inr (.inl ⟨a, b, rfl, by simpa [memAccessWf] using ha, by simpa [eq_comm] using h⟩))
    · cases h
  | memRead a =>
    simp only [serve] at h
    split at h
    · next ha => exact .inr (.inr (.inr (.inl ⟨a, rfl, by simpa [memAccessWf] using ha, by simpa [eq_comm] using h⟩)))
    · cases h
  | reset => exact .inr (.inr (.inr (.inr ⟨rfl, by simpa [serve, eq_comm] using h⟩)))

/-- What is taken out of the inputs when a reset ends a wait: the first reset, and nothing else. -/
theorem takeReset_some {l rest : List Input} (h : takeReset l = some rest) :
    ∃ before after, l = before ++ .reset :: after ∧ rest = before ++ after ∧ .reset ∉ before := by
  induction l generalizing rest with
  | nil => cases h
  | cons i l ih =>
    by_cases hi : i = .reset
    · subst hi
      exact ⟨[], l, rfl, (Option.some.inj h).symm, List.not_mem_nil⟩
    · have hc : takeReset (i :: l) = (takeReset l).map (i :: ·) := by
        cases i <;> first | exact absurd rfl hi | (simp only [takeReset]; cases takeReset l <;> rfl)
      rw [hc, Option.map_eq_some_iff] at h
      obtain ⟨r, hr, rfl⟩ := h
      obtain ⟨b, a, rfl, rfl, hb⟩ := ih hr
      exact ⟨i :: b, a, rfl, rfl, by simp [hb, Ne.symm hi]⟩

/-- Everything a step can do. -/
theorem step_next {s t : State} (h : step s = .next t) :
    s.cfg.wf = true ∧
    ((∃ f l, s.waiting = some f ∧ takeReset s.inputs = some l ∧ t = applyReset (s.setInputs l)) ∨
     (s.waiting = none ∧ s.inputs = [] ∧ t = s) ∨
     (∃ i l, s.waiting = none ∧ s.inputs = i :: l ∧ serve i (s.setInputs l) = .next t)) := by
  unfold step stepBus at h
  split at h
  · next hc =>
    refine ⟨hc, ?_⟩
    split at h
    · next f hf =>
      unfold stepWaiting at h
      split at h
      · cases h
      · next l hl => exact .inl ⟨f, l, hf, hl, by simpa [eq_comm] using h⟩
    · next hw =>
      unfold stepIdle at h
      split at h
      · next hi => exact .inr (.inl ⟨hw, hi, by simpa [eq_comm] using h⟩)
      · next i l hi => exact .inr (.inr ⟨i, l, hw, hi, h⟩)
  · cases h

/-- A step of an idle block serves the next input. -/
theorem step_idle {s : State} {i : Input} {l : List Input} (hc : s.cfg.wf = true) (hw : s.waiting = none)
    (hi : s.inputs = i :: l) : step s = serve i (s.setInputs l) := by
  simp [step, stepBus, stepIdle, hc, hw, hi]

end Sys2Proof.Machine
end

