-- ==== Sys2Proof/Tests/Slice0.lean ====
section
/-! SUPPORT. The model's own tests. Expected values are the spec's: the words of 30_encoding.md R70 to R72, and the
vectors of 95_test_vectors.md, named in each docstring. Then, for every obligation with hypotheses, a state and operands
that meet them. -/

namespace Sys2Proof.Tests

open Sys2Proof Sys2Proof.Machine

-- One thread for the many kernel evaluations below, so that their stacks fit the compile's memory limit together.
set_option Elab.async false

/-! ### Helpers -/

/-- Bytes from their numbers. -/
def bytes (l : List Nat) : List Byte := l.map (BitVec.ofNat 8)

/-- The block right after reset, in the configuration of 95_test_vectors.md. -/
def base : State := State.resetWith Config.vectors 0

/-- The block with bytes written to MEM. -/
def holding (a : Nat) (l : List Nat) (s : State) : State := { s with mem := Memory.storeBytes s.mem a (bytes l) }

/-- The block with one host access to come. -/
def facing (i : Input) (s : State) : State := { s with inputs := [i] }

/-- The block with the write of a word to CMD to come. -/
def facingCmd (w : Word) (s : State) : State := facing (.regWrite 32 0x00 w) s

/-- An answer is a next state of which `p` holds. -/
def answers (o : Answer) (p : State → Bool) : Bool :=
  match o with
  | .next t => p t
  | .fault _ => false
  | .refused _ => false

/-- An answer is this refusal. -/
def refuses (o : Answer) (r : Refusal) : Bool :=
  match o with
  | .next _ => false
  | .fault _ => false
  | .refused q => decide (q = r)

/-- An answer is this fault. -/
def faults (o : Answer) (r : Fault) : Bool :=
  match o with
  | .next _ => false
  | .fault q => decide (q = r)
  | .refused _ => false

theorem of_answers {o : Answer} {p : State → Bool} (h : answers o p = true) : ∃ t, o = .next t ∧ p t = true := by
  cases o with
  | next t => exact ⟨t, rfl, h⟩
  | fault r => cases h
  | refused r => cases h

/-- The register and memory side of `base` for FENC of payload 41 at 0x000 to 0x100 (vectors F1 to F12). -/
def fencAt (payload : List Nat) (dstCap : Word) : State :=
  holding 0 payload { base with srcLen := BitVec.ofNat 32 payload.length, dstPtr := 0x100#32, dstCap := dstCap,
                                frAddr := 0x7B#8 }

/-- `base` with a frame at 0x000 and a payload buffer at 0x200 (vectors FD1 to FD19). -/
def fdecAt (frame : List Nat) (dstCap : Word) : State :=
  holding 0 frame { base with srcLen := BitVec.ofNat 32 frame.length, dstPtr := 0x200#32, dstCap := dstCap }

/-- `base` with the envelope fields of vector PE3 and a buffer at 0x100. -/
def pencAt (dstCap : Word) : State :=
  { base with pktType := 2#32, pktChannel := 1#32, pktService := 7#32, pktMethod := 3#32, pktStatus := 15#32,
              dstPtr := 0x100#32, dstCap := dstCap }

/-- `base` with the envelope of vector PE8 in registers: payload 7E at 0x000. -/
def pencPayload : State :=
  holding 0 [0x7E] { base with pktChannel := 5#32, pktService := 0x80#32, pktMethod := 0x3FFF#32, pktStatus := 1#32,
                               pktPayLen := 1#32, dstPtr := 0x100#32, dstCap := 13#32 }

/-- `base` with envelope bytes at 0x000 (vectors PD1 to PD20). -/
def pdecAt (envelope : List Nat) : State :=
  holding 0 envelope { base with srcLen := BitVec.ofNat 32 envelope.length }

/-- `base` with the region acquired, 41 at its start, and one answer of the sink lined up (vectors CH5 to CH7). -/
def relAt (used : Word) (r : SinkReply) : State :=
  holding 0x300 [0x41] { base with srcLen := used, acquired := true, sinkReplies := [r] }

/-- `base` after a contract violation, the region still acquired (program L3-4). -/
def faulted : State := { base with acquired := true, fault := true, result := .contractViolation }

/-- A REL that waits for the sink, with inputs to come. -/
def waitingWith (l : List Input) : State :=
  { relAt 1#32 .error with sinkReplies := [], sinkCount := 1, inputs := l,
                           waiting := some (bytes [0x7E, 0x7B, 0x00, 0x41, 0xA5, 0x2F, 0x3E, 0xA6, 0x7E]) }

/-! ### WellFormed: each check refuses an ill-formed term -/

theorem test_wf_accepts : Config.vectors.wf = true := by decide
theorem test_wf_memSize : ({ Config.vectors with memSize := 2 ^ 32 + 1 } : Config).wf = false := by decide
theorem test_wf_bufSize : ({ Config.vectors with bufSize := 13 } : Config).wf = false := by decide
theorem test_wf_bufOutside : ({ Config.vectors with chBufBase := 0x3C1 } : Config).wf = false := by decide
theorem test_wf_regBase : ({ Config.vectors with regBase := 0x80 } : Config).wf = false := by decide
theorem test_wf_width : Input.wf Config.vectors (.regWrite 16 0x08 0#32) = false := by decide
theorem test_wf_alignment : Input.wf Config.vectors (.regRead 32 0x06) = false := by decide
theorem test_wf_window : Input.wf Config.vectors (.regRead 32 0x100) = false := by decide
theorem test_wf_memWrite : Input.wf Config.vectors (.memWrite 0x400 0#8) = false := by decide
theorem test_wf_memRead : Input.wf Config.vectors (.memRead 0x400) = false := by decide
theorem test_wf_memLine : HostLine.wf Config.vectors (.mem 0x3FF [0#8, 0#8]) = false := by decide

/-! ### Decode: words written out from 30_encoding.md R70 and R71 -/

theorem test_decode_fenc : decode 0b0000000000000000000000000000_0001#32 = .ok .fenc := by decide
theorem test_decode_fdec : decode 0b0000000000000000000000000000_0010#32 = .ok .fdec := by decide
theorem test_decode_penc : decode 0b0000000000000000000000000000_0011#32 = .ok .penc := by decide
theorem test_decode_pdec : decode 0b0000000000000000000000000000_0100#32 = .ok .pdec := by decide
theorem test_decode_psize : decode 0b0000000000000000000000000000_0101#32 = .ok .psize := by decide
theorem test_decode_acq : decode 0b0000000000000000000000000000_0110#32 = .ok .acq := by decide
theorem test_decode_rel : decode 0b0000000000000000000000000000_0111#32 = .ok .rel := by decide

/-- Vectors CW1 to CW5. -/
theorem test_decode_illegal :
    decode 0x00000000#32 = .error .opcZero ∧ decode 0x00000008#32 = .error .opcUnassigned ∧
    decode 0x0000000F#32 = .error .opcUnassigned ∧ decode 0x00000011#32 = .error .reservedBits ∧
    decode 0x80000001#32 = .error .reservedBits := by decide

theorem test_decode_tableWord : decodeTableWord 32 7 = some .rel ∧ decodeTableWord 32 8 = none := by decide

/-! ### One step of each command -/

/-- Vector F5: an FCS byte is escaped, and the output just fits. -/
theorem test_fenc_escapes : answers (exec .fenc (fencAt [0x11] 10#32)) (fun t => decide (t.result = .ok ∧
    t.outLen = 10#32 ∧
    memRead t 0x100 10 = bytes [0x7E, 0x7B, 0x00, 0x11, 0x51, 0x7D, 0x5E, 0x55, 0xCD, 0x7E])) = true := by
  decide +kernel

/-- Vector F9: the frame does not fit, and MEM is unchanged. -/
theorem test_fenc_tooSmall : answers (exec .fenc (fencAt [0x41] 8#32)) (fun t => decide (t.result = .bufferTooSmall ∧
    t.outLen = 9#32 ∧ t.mem = [(0, 0x41#8)])) = true := by decide +kernel

/-- Vector FD5: a lenient escape decodes. -/
theorem test_fdec_lenient :
    answers (exec .fdec (fdecAt [0x7E, 0x7B, 0x00, 0x7D, 0x61, 0xA5, 0x2F, 0x3E, 0xA6, 0x7E] 64#32)) (fun t =>
      decide (t.result = .ok ∧ t.outLen = 1#32 ∧ t.frAddr = 0x7B#8 ∧ t.frCtrl = 0x00#8 ∧ readByte t 0x200 = 0x41#8))
      = true := by decide +kernel

/-- Vector FD17: an extra FLAG after the frame. -/
theorem test_fdec_extraFlag :
    answers (exec .fdec (fdecAt [0x7E, 0x7B, 0x00, 0x41, 0xA5, 0x2F, 0x3E, 0xA6, 0x7E, 0x7E] 64#32)) (fun t =>
      decide (t.result = .corruptFrame ∧ t.outLen = 0#32 ∧ t.frAddr = 0#8)) = true := by decide +kernel

/-- Vector PE3. -/
theorem test_penc_errorEnvelope : answers (exec .penc (pencAt 64#32)) (fun t => decide (t.result = .ok ∧
    t.outLen = 10#32 ∧
    memRead t 0x100 10 = bytes [0x08, 0x02, 0x10, 0x01, 0x18, 0x07, 0x20, 0x03, 0x30, 0x0F])) = true := by
  decide +kernel

/-- Vector PE8. -/
theorem test_penc_payload : answers (exec .penc pencPayload) (fun t => decide (t.result = .ok ∧ t.outLen = 13#32 ∧
    memRead t 0x100 13 = bytes [0x10, 0x05, 0x18, 0x80, 0x01, 0x20, 0xFF, 0x7F, 0x2A, 0x01, 0x7E, 0x30, 0x01])) = true := by
  decide +kernel

/-- Vector PD2. -/
theorem test_pdec_payload : answers (exec .pdec (pdecAt [0x18, 0x01, 0x20, 0x02, 0x2A, 0x02, 0x41, 0x42])) (fun t =>
    decide (t.result = .ok ∧ t.pktService = 1#32 ∧ t.pktMethod = 2#32 ∧ t.pktPayPtr = 6#32 ∧ t.pktPayLen = 2#32 ∧
      t.outLen = 8#32)) = true := by decide +kernel

/-- Vector PD16: the payload overruns the source. -/
theorem test_pdec_overrun : answers (exec .pdec (pdecAt [0x18, 0x01, 0x20, 0x02, 0x2A, 0x03, 0x41, 0x42])) (fun t =>
    decide (t.result = .malformedPacket ∧ t.pktService = 0#32 ∧ t.outLen = 0#32)) = true := by decide +kernel

/-- The 2.7 row for 128: the length varint has grown. -/
theorem test_psize_128 : answers (exec .psize { base with pktPayLen := 128#32 }) (fun t => decide (t.result = .ok ∧
    t.outLen = 135#32 ∧ t.outAux = 161#32)) = true := by decide +kernel

/-- The 2.7 row for 0xFFFFFFF0: the maximum saturates. -/
theorem test_psize_saturates : answers (exec .psize { base with pktPayLen := 0xFFFFFFF0#32 }) (fun t =>
    decide (t.outLen = 0xFFFFFFFA#32 ∧ t.outAux = 0xFFFFFFFF#32)) = true := by decide +kernel

/-- Vector CH1. -/
theorem test_acq : answers (exec .acq base) (fun t => decide (readOffset t 0x04 = 0x00000100#32 ∧
    t.outAux = 0x300#32 ∧ t.outLen = 25#32)) = true := by decide +kernel

/-- Vector CH2. -/
theorem test_acq_twice : answers (exec .acq { base with acquired := true }) (fun t =>
    decide (readOffset t 0x04 = 0x00000304#32)) = true := by decide +kernel

/-- Vector CH7: the sink answers with an error. -/
theorem test_rel_sinkError : answers (exec .rel (relAt 1#32 .error)) (fun t =>
    decide (readOffset t 0x04 = 0x00000007#32 ∧ t.outLen = 9#32 ∧ t.sinkHistory =
      [{ frame := bytes [0x7E, 0x7B, 0x00, 0x41, 0xA5, 0x2F, 0x3E, 0xA6, 0x7E], answer := .err }])) = true := by
  decide +kernel

/-- Vector CH4: a used length above CAP. -/
theorem test_rel_tooLong : answers (exec .rel (relAt 26#32 (.written 100))) (fun t => decide (t.fault = true ∧
    t.acquired = true ∧ t.sinkHistory = [] ∧ t.result = .contractViolation)) = true := by decide +kernel

/-! ### The bus, reset and program lines -/

/-- Vector RA3. -/
theorem test_write_frCtrl : answers (step (facing (.regWrite 32 0x24 0x12345678#32) base)) (fun t =>
    decide (readOffset t 0x24 = 0x78#32)) = true := by decide +kernel

/-- Vector CW7: an illegal word to a faulted block. -/
theorem test_faulted : answers (step (facingCmd 0#32 faulted)) (fun t =>
    decide (readOffset t 0x04 = 0x00000308#32)) = true := by decide +kernel

/-- A block that waits for the sink is stuck, and a reset frees it (42_channel_output.md R166). -/
theorem test_waiting_stuck : faults (step (waitingWith [.regRead 32 0x04])) .awaitingSink = true := by decide +kernel

/-- A reset ends the wait and MEM is kept (70_reset_and_hazards.md R200, R201). -/
theorem test_waiting_reset : answers (step (waitingWith [.regRead 32 0x04, .reset])) (fun t =>
    decide (t.waiting = none ∧ t.acquired = false ∧ t.inputs = [.regRead 32 0x04] ∧ readByte t 0x300 = 0x41#8)) = true := by
  decide +kernel

/-- The example of 30_encoding.md R91 from its text, a comment and a `mem` line of program L3-2. -/
theorem test_program_text :
    (parseProgram ["wr FR_ADDR, 0x7B ; address", "; a comment", "mem 0x000, 41 42", "cmd REL", "rd OUT_LEN"]).map
      programInputs = some [.regWrite 32 0x20 0x0000007B#32, .memWrite 0 0x41#8, .memWrite 1 0x42#8,
        .regWrite 32 0x00 0x00000007#32, .regRead 32 0x18] := by decide +kernel

theorem test_program_badText : parseLine "wr FR_ADDR" = none ∧ parseLine "jmp 0" = none ∧
    parseLine "wr OUT_LEN, 0x100000000" = none := by decide +kernel

/-! ### Witnesses: states and operands that meet the hypotheses of each obligation -/

theorem facing_next (i : Input) {s : State} (h : s.cfg = Config.vectors) (hw : s.waiting = none) :
    NextInput (facing i s) i [] := ⟨by show s.cfg.wf = true; rw [h]; decide, hw, rfl⟩

theorem witness_DecodeOfEncodeIsTheCommand : Instr.fenc.wf = true ∧ Instr.rel.wf = true := by decide

theorem illegal_words : IllegalWord 0x00000000#32 ∧ IllegalWord 0x00000008#32 ∧ IllegalWord 0x0000000F#32 ∧
    IllegalWord 0x00000011#32 ∧ IllegalWord 0x80000001#32 := by unfold IllegalWord; decide

theorem witness_IllegalWordHasOneEffect :
    (NextInput (facingCmd 0x00000008#32 base) (.regWrite 32 0x00 0x00000008#32) [] ∧ IllegalWord 0x00000008#32) ∧
    (NextInput (facingCmd 0x00000011#32 faulted) (.regWrite 32 0x00 0x00000011#32) [] ∧ IllegalWord 0x00000011#32) :=
  ⟨⟨facing_next _ rfl rfl, illegal_words.2.1⟩, facing_next _ rfl rfl, illegal_words.2.2.2.1⟩

theorem witness_StepRunsTheDecodedCommand (i : Instr) :
    NextInput (facingCmd (encode i) base) (.regWrite 32 0x00 (encode i)) [] ∧ decode (encode i) = .ok i :=
  ⟨facing_next _ rfl rfl, by cases i <;> decide⟩

theorem witness_PlacedWordRunsNext : base.cfg.wf = true ∧ (waitingWith []).cfg.wf = true ∧
    decodeTableWord 32 1 = some .fenc ∧ decodeTableWord 3 7 = some .rel := by decide

/-- The two frames are vectors FD1 (canonical) and FD5 (not). -/
theorem witness_FrameRoundTrip :
    (∃ d, frameDecode (bytes [0x7E, 0x7B, 0x00, 0x41, 0xA5, 0x2F, 0x3E, 0xA6, 0x7E]) = .ok d) ∧
    ∃ d, frameDecode (bytes [0x7E, 0x7B, 0x00, 0x7D, 0x61, 0xA5, 0x2F, 0x3E, 0xA6, 0x7E]) = .ok d :=
  ⟨⟨⟨0x7B#8, 0x00#8, [0x41#8]⟩, by decide +kernel⟩, ⟨⟨0x7B#8, 0x00#8, [0x41#8]⟩, by decide +kernel⟩⟩

/-- Both bounds are reached: by vector F1, and by a payload all of whose frame bytes need escaping. -/
theorem witness_FrameLengthBounds :
    (∀ b ∈ frameRaw 0x7B#8 0x00#8 [0x41#8], b ≠ FLAG ∧ b ≠ ESC) ∧
    (∀ b ∈ frameRaw 0x7D#8 0x7D#8 (bytes [0x7E, 0x7D, 0x7D, 0x7E, 0x7E, 0x7E, 0x7D, 0x7D, 0x7D, 0x7D, 0x7D, 0x7E, 0x7E,
      0x7E, 0x7D, 0x7D, 0x7D, 0x7D, 0x7D, 0x7E, 0x7E, 0x7D]), b = FLAG ∨ b = ESC) ∧
    ∃ d, frameDecode (bytes [0x7E, 0x00, 0x00, 0xFF, 0x12, 0xD9, 0x41, 0x7E]) = .ok d :=
  ⟨by decide +kernel, by decide +kernel, ⟨0#8, 0#8, []⟩, by decide +kernel⟩

/-- In the frame of vector F1: the first FLAG; 7C made a FLAG (its payload byte replaced by 7C); 41 made 40. -/
theorem witness_SingleBitFlipIsDetected :
    (frameEncode 0x7B#8 0x00#8 [0x41#8])[0]? = some 0x7E#8 ∧ (frameEncode 0x7B#8 0x00#8 [0x41#8])[8]? = some 0x7E#8 ∧
    ((frameEncode 0x7B#8 0x00#8 [0x7C#8])[3]? = some 0x7C#8 ∧ 3 + 1 < (frameEncode 0x7B#8 0x00#8 [0x7C#8]).length ∧
      flipBit 0x7C#8 1 = FLAG) ∧
    ((frameEncode 0x7B#8 0x00#8 [0x41#8])[3]? = some 0x41#8 ∧ 0x41#8 ≠ ESC ∧ flipBit 0x41#8 0 ≠ FLAG ∧
      flipBit 0x41#8 0 ≠ ESC) := by decide +kernel

theorem witness_VarintEncoding : (0x7F < 0x80) ∧ (0x80 ≤ 0x80 ∧ 0x80 < 2 ^ 32) ∧ 0xFFFFFFFF < 2 ^ 32 ∧
    (venc 0xFFFFFFFF)[4]? = some 0x0F#8 := by decide

theorem witness_VarintDecodingIsCanonical :
    vdec (bytes [0xFF, 0xFF, 0xFF, 0xFF, 0x0F, 0x20]) = some (0xFFFFFFFF, [0x20#8]) ∧
    vdec (bytes [0x80, 0x00]) = none := by decide

/-- Vectors PD2 and PD1. -/
theorem decoded_envelopes :
    envelopeDecode (bytes [0x18, 0x01, 0x20, 0x02, 0x2A, 0x02, 0x41, 0x42]) =
      .ok ({ type := 0#32, channelId := 0#32, serviceId := 1#32, methodId := 2#32, payload := [0x41#8, 0x42#8],
             status := 0#32 }, some 6) ∧
    envelopeDecode (bytes [0x18, 0x00, 0x20, 0x00]) =
      .ok ({ type := 0#32, channelId := 0#32, serviceId := 0#32, methodId := 0#32, payload := [], status := 0#32 }, none) := by
  decide +kernel

theorem witness_EnvelopeEncodingIsABijection :
    (pktEnvelope pencPayload).Legal ∧
    ∃ e poff, envelopeDecode (bytes [0x18, 0x00, 0x20, 0x00]) = .ok (e, poff) :=
  ⟨by unfold Envelope.Legal; decide +kernel, _, _, decoded_envelopes.2⟩

theorem witness_PayloadIndexPointsAtThePayload :
    (∃ e n, envelopeDecode (bytes [0x18, 0x01, 0x20, 0x02, 0x2A, 0x02, 0x41, 0x42]) = .ok (e, some n)) ∧
    ∃ e, envelopeDecode (bytes [0x18, 0x00, 0x20, 0x00]) = .ok (e, none) :=
  ⟨⟨_, _, decoded_envelopes.1⟩, _, decoded_envelopes.2⟩

theorem witness_EncodedSizeFormula : (pktEnvelope pencPayload).Legal := by unfold Envelope.Legal; decide +kernel

theorem witness_SizeBoundsBoundTheSize :
    (pktEnvelope pencPayload).Legal ∧ 30 + payloadPart (pktEnvelope pencPayload).payload.length ≤ 0xFFFFFFFF := by
  unfold Envelope.Legal; decide +kernel

theorem witness_ErrorEnvelopeFitsFromThirty : (pktEnvelope (pencAt 64#32)).payload = [] ∧
    30 ≤ cap { Config.vectors with bufSize := 74 } ∧ ¬ 30 ≤ cap { Config.vectors with bufSize := 73 } := by
  decide +kernel

/-- Vector F11, an exact fit; and a frame written over its own payload. -/
theorem witness_FencStoresTheFrame :
    (∃ s : State, s.fault = false ∧ InRange s.cfg s.srcPtr s.srcLen ∧ InRange s.cfg s.dstPtr s.dstCap ∧
      (frameEncode s.frAddr s.frCtrl (memRead s s.srcPtr.toNat s.srcLen.toNat)).length = s.dstCap.toNat) ∧
    ∃ s : State, s.fault = false ∧ InRange s.cfg s.srcPtr s.srcLen ∧ InRange s.cfg s.dstPtr s.dstCap ∧
      s.dstPtr = s.srcPtr ∧
      (frameEncode s.frAddr s.frCtrl (memRead s s.srcPtr.toNat s.srcLen.toNat)).length ≤ s.dstCap.toNat :=
  ⟨⟨fencAt [0x41] 9#32, by decide +kernel⟩, { fencAt [0x41] 9#32 with dstPtr := 0#32 }, by decide +kernel⟩

/-- Vector FD1 into a buffer of one byte. -/
theorem witness_FdecStoresThePayload :
    ∃ (s : State) (d : Decoded), s.fault = false ∧ InRange s.cfg s.srcPtr s.srcLen ∧ InRange s.cfg s.dstPtr s.dstCap ∧
      frameDecode (memRead s s.srcPtr.toNat s.srcLen.toNat) = .ok d ∧ d.payload.length ≤ s.dstCap.toNat :=
  ⟨fdecAt [0x7E, 0x7B, 0x00, 0x41, 0xA5, 0x2F, 0x3E, 0xA6, 0x7E] 1#32, ⟨0x7B#8, 0#8, [0x41#8]⟩, by decide +kernel⟩

theorem witness_PencStoresTheEnvelope :
    ∃ s : State, s.fault = false ∧ InRange s.cfg s.pktPayPtr s.pktPayLen ∧ InRange s.cfg s.dstPtr s.dstCap ∧
      (envelopeEncode { type := s.pktType, channelId := s.pktChannel, serviceId := s.pktService, methodId := s.pktMethod,
                        payload := memRead s s.pktPayPtr.toNat s.pktPayLen.toNat, status := s.pktStatus }).length
        ≤ s.dstCap.toNat :=
  ⟨pencPayload, by decide +kernel⟩

theorem witness_PdecPointsAtThePayload :
    (∃ (s : State) (e : Envelope) (n : Nat), s.cfg.wf = true ∧ s.fault = false ∧ InRange s.cfg s.srcPtr s.srcLen ∧
      envelopeDecode (memRead s s.srcPtr.toNat s.srcLen.toNat) = .ok (e, some n)) ∧
    ∃ (s : State) (e : Envelope), s.cfg.wf = true ∧ s.fault = false ∧ InRange s.cfg s.srcPtr s.srcLen ∧
      envelopeDecode (memRead s s.srcPtr.toNat s.srcLen.toNat) = .ok (e, none) :=
  ⟨⟨pdecAt [0x18, 0x01, 0x20, 0x02, 0x2A, 0x02, 0x41, 0x42], _, 6, by decide, rfl, by decide +kernel, by
      rw [show memRead (pdecAt [0x18, 0x01, 0x20, 0x02, 0x2A, 0x02, 0x41, 0x42]) _ _ = bytes [0x18, 0x01, 0x20, 0x02, 0x2A,
        0x02, 0x41, 0x42] by decide +kernel]
      exact decoded_envelopes.1⟩,
   pdecAt [0x18, 0x00, 0x20, 0x00], _, by decide, rfl, by decide +kernel, by
      rw [show memRead (pdecAt [0x18, 0x00, 0x20, 0x00]) _ _ = bytes [0x18, 0x00, 0x20, 0x00] by decide +kernel]
      exact decoded_envelopes.2⟩

theorem witness_PsizeWritesTheBounds : base.fault = false := rfl

theorem witness_AcqHandsOutTheRegion :
    (base.cfg.wf = true ∧ base.fault = false ∧ base.acquired = false) ∧
    ((relAt 0#32 .error).fault = false ∧ (relAt 0#32 .error).acquired = true) ∧
    Config.vectors.chBufBase = 0x300 ∧ Config.vectors.bufSize = 64 := by decide

/-- The used lengths 0 and CAP, and an answer at each side of "fewer bytes than sent". -/
theorem witness_RelSendsTheFrameAndReleases :
    (relAt 1#32 (.written 9)).cfg.wf = true ∧ (relAt 1#32 (.written 9)).fault = false ∧
    (relAt 1#32 (.written 9)).acquired = true ∧ (relAt 25#32 .error).srcLen.toNat = cap Config.vectors ∧
    sinkReply (relAt 1#32 (.written 9)) = .written 9 ∧ (relFrame (relAt 1#32 (.written 9))).length = 9 ∧
    sinkReply (relAt 1#32 (.written 8)) = .written 8 ∧ sinkReply (relAt 0#32 .error) = .error := by decide +kernel

theorem witness_RelOutOfContractSendsNothing :
    (base.fault = false ∧ base.acquired = false) ∧
    ((relAt 26#32 .error).fault = false ∧ (relAt 26#32 .error).acquired = true ∧
      cap (relAt 26#32 .error).cfg < (relAt 26#32 .error).srcLen.toNat) := by decide

theorem witness_RelWithoutAnAnswerWaits :
    (relAt 1#32 .noAnswer).fault = false ∧ (relAt 1#32 .noAnswer).acquired = true ∧
    (relAt 1#32 .noAnswer).srcLen.toNat ≤ cap (relAt 1#32 .noAnswer).cfg ∧
    sinkReply (relAt 1#32 .noAnswer) = .noAnswer := by decide

theorem witness_WaitingBlockIsStuckUntilReset :
    (waitingWith [.memRead 0]).cfg.wf = true ∧ (waitingWith [.memRead 0]).waiting.isSome = true ∧
    .reset ∉ (waitingWith [.memRead 0]).inputs ∧
    (waitingWith [.memRead 0, .reset]).inputs = [.memRead 0] ++ .reset :: [] ∧ .reset ∉ [Input.memRead 0] := by decide

theorem witness_FaultedBlockRunsNothing :
    NextInput (facingCmd 1#32 faulted) (.regWrite 32 0x00 1#32) [] ∧ (facingCmd 1#32 faulted).fault = true :=
  ⟨facing_next _ rfl rfl, rfl⟩

/-- Vectors F14 (an input region), F15 (an output region), F17 (no wrap), and a payload region. -/
theorem witness_BadRangeChangesNothingElse :
    RangeBroken .fenc { base with srcPtr := 0x3FF#32, srcLen := 2#32, dstCap := 16#32 } ∧
    RangeBroken .penc { base with dstPtr := 0x3F8#32, dstCap := 16#32 } ∧
    RangeBroken .pdec { base with srcPtr := 0xFFFFFFFF#32, srcLen := 2#32 } ∧
    RangeBroken .penc { base with pktPayPtr := 0x401#32 } ∧ ¬ RangeBroken .fdec { base with srcPtr := 0x400#32 } ∧
    base.fault = false := by unfold RangeBroken; decide

/-- Vectors FD9 and PD7. -/
theorem witness_BadContentChangesNothingElse :
    (¬ RangeBroken .fdec (fdecAt [0x7E, 0x7E] 64#32) ∧ ContentBroken .fdec (fdecAt [0x7E, 0x7E] 64#32)) ∧
    ¬ RangeBroken .pdec (pdecAt [0x18, 0x01]) ∧ ContentBroken .pdec (pdecAt [0x18, 0x01]) := by
  refine ⟨⟨by unfold RangeBroken; decide, .inl ⟨rfl, fun d => ?_⟩⟩, by unfold RangeBroken; decide, .inr ⟨rfl, fun x => ?_⟩⟩
  · rw [show frameDecode (srcBytes (fdecAt [0x7E, 0x7E] 64#32)) = .error .short by decide +kernel]; exact nofun
  · rw [show envelopeDecode (srcBytes (pdecAt [0x18, 0x01])) = .error .missing by decide +kernel]; exact nofun

/-- Vectors F9 and FD18, an envelope one byte too long, and DST_CAP = 0. -/
theorem witness_TooSmallReportsTheLengthNeeded :
    (¬ RangeBroken .fenc (fencAt [0x41] 8#32) ∧ DoesNotFit .fenc (fencAt [0x41] 8#32)) ∧
    (¬ RangeBroken .fdec (fdecAt [0x7E, 0x7B, 0x00, 0x41, 0xA5, 0x2F, 0x3E, 0xA6, 0x7E] 0#32) ∧
      DoesNotFit .fdec (fdecAt [0x7E, 0x7B, 0x00, 0x41, 0xA5, 0x2F, 0x3E, 0xA6, 0x7E] 0#32)) ∧
    (¬ RangeBroken .penc (pencAt 9#32) ∧ DoesNotFit .penc (pencAt 9#32)) ∧ (fencAt [0x41] 0#32).dstCap = 0#32 := by
  refine ⟨⟨by unfold RangeBroken; decide, _, .inl ⟨rfl, rfl⟩, by decide +kernel⟩,
    ⟨by unfold RangeBroken; decide, [0x41#8], .inr (.inl ⟨rfl, ⟨0x7B#8, 0#8, [0x41#8]⟩, by decide +kernel, rfl⟩),
      by decide +kernel⟩,
    ⟨by unfold RangeBroken; decide, _, .inr (.inr ⟨rfl, rfl⟩), by decide +kernel⟩, rfl⟩

/-- For each result code, a block and a word that end in it. -/
theorem witness_ResultCodesWriteWhatTheirTableSays :
    answers (writeCmd 1#32 (fencAt [0x41] 9#32)) (fun t => decide (t.result = .ok)) = true ∧
    answers (writeCmd 2#32 (fdecAt [0x7E, 0x7E] 64#32)) (fun t => decide (t.result = .corruptFrame)) = true ∧
    answers (writeCmd 3#32 (pencAt 9#32)) (fun t => decide (t.result = .bufferTooSmall)) = true ∧
    answers (writeCmd 4#32 (pdecAt [0x18, 0x01])) (fun t => decide (t.result = .malformedPacket)) = true ∧
    answers (writeCmd 7#32 base) (fun t => decide (t.result = .contractViolation)) = true ∧
    answers (writeCmd 8#32 base) (fun t => decide (t.result = .badCommand)) = true ∧
    answers (writeCmd 4#32 { base with srcPtr := 0x401#32 }) (fun t => decide (t.result = .badRange)) = true ∧
    answers (writeCmd 7#32 (relAt 1#32 (.written 8))) (fun t => decide (t.result = .sinkError)) = true ∧
    answers (writeCmd 0#32 faulted) (fun t => decide (t.result = .faulted)) = true := by decide +kernel

theorem witness_ResultCodes_notSilent : ∀ i, decode 7#32 = .ok i → ¬ SinkSilent i (relAt 1#32 (.written 8)) := by
  intro i _ h; exact absurd h.2 (by decide)

/-- Where two conditions hold together the one that comes first is reported: a bad range with bad content, and bad content
with too small a buffer; and each condition of the list alone is met by the states of the witness above. -/
theorem witness_FirstApplicableResultIsReported :
    (RangeBroken .fdec { fdecAt [0x7E, 0x7E] 64#32 with dstPtr := 0x400#32 } ∧
      answers (writeCmd 2#32 { fdecAt [0x7E, 0x7E] 64#32 with dstPtr := 0x400#32 })
        (fun t => decide (t.result = .badRange)) = true) ∧
    answers (writeCmd 2#32 (fdecAt [0x7E, 0x7E] 0#32)) (fun t => decide (t.result = .corruptFrame)) = true ∧
    (ContractBroken .acq faulted ∧ answers (writeCmd 6#32 faulted) (fun t => decide (t.result = .faulted)) = true) ∧
    (SinkFails .rel (relAt 1#32 .error) ∧ ¬ ContractBroken .rel (relAt 1#32 .error)) := by
  refine ⟨⟨by unfold RangeBroken; decide, by decide +kernel⟩, by decide +kernel,
    ⟨.inl ⟨rfl, rfl⟩, by decide +kernel⟩, ⟨rfl, rfl⟩, by unfold ContractBroken; decide⟩

/-- Every command answers a next state from every state, so the hypothesis `exec i s = .next t` is met wherever one looks;
here on blocks where the command ends in OK. -/
theorem witness_commands_end_in_ok :
    answers (exec .fenc (fencAt [0x41] 9#32)) (fun t => decide (t.result = .ok)) = true ∧
    answers (exec .fdec (fdecAt [0x7E, 0x7B, 0x00, 0x41, 0xA5, 0x2F, 0x3E, 0xA6, 0x7E] 1#32))
      (fun t => decide (t.result = .ok)) = true ∧
    answers (exec .penc pencPayload) (fun t => decide (t.result = .ok)) = true ∧
    answers (exec .pdec (pdecAt [0x18, 0x00, 0x20, 0x00])) (fun t => decide (t.result = .ok)) = true ∧
    answers (exec .psize base) (fun t => decide (t.result = .ok)) = true ∧
    answers (exec .acq base) (fun t => decide (t.result = .ok)) = true ∧
    answers (exec .rel (relAt 1#32 (.written 9))) (fun t => decide (t.result = .ok)) = true := by decide +kernel

theorem witness_StoringCommandsChangeOnlyTheirOutputs :
    (∃ t, exec .fenc (fencAt [0x41] 9#32) = .next t) ∧ (∃ t, exec .penc pencPayload = .next t) ∧
    (∃ t d, exec .fdec (fdecAt [0x7E, 0x7B, 0x00, 0x41, 0xA5, 0x2F, 0x3E, 0xA6, 0x7E] 1#32) = .next t ∧
      frameDecode (srcBytes (fdecAt [0x7E, 0x7B, 0x00, 0x41, 0xA5, 0x2F, 0x3E, 0xA6, 0x7E] 1#32)) = .ok d) ∧
    ∃ t, exec .fdec (fdecAt [0x7E, 0x7E] 64#32) = .next t ∧
      ∀ d, frameDecode (srcBytes (fdecAt [0x7E, 0x7E] 64#32)) ≠ .ok d := by
  refine ⟨exec_answers .., exec_answers .., ?_, ?_⟩
  · obtain ⟨t, h⟩ := exec_answers .fdec (fdecAt [0x7E, 0x7B, 0x00, 0x41, 0xA5, 0x2F, 0x3E, 0xA6, 0x7E] 1#32)
    exact ⟨t, ⟨0x7B#8, 0#8, [0x41#8]⟩, h, by decide +kernel⟩
  · obtain ⟨t, h⟩ := exec_answers .fdec (fdecAt [0x7E, 0x7E] 64#32)
    refine ⟨t, h, fun d => ?_⟩
    rw [show frameDecode (srcBytes (fdecAt [0x7E, 0x7E] 64#32)) = .error .short by decide +kernel]; exact nofun

theorem witness_OtherCommandsStoreNothing :
    (∃ t, exec .pdec (pdecAt [0x18, 0x00, 0x20, 0x00]) = .next t) ∧ (∃ t, exec .psize base = .next t) ∧
    (∃ t, exec .acq base = .next t) ∧ ∃ t, exec .rel (relAt 1#32 (.written 9)) = .next t :=
  ⟨exec_answers .., exec_answers .., exec_answers .., exec_answers ..⟩

theorem witness_OnlyOkWritesMem :
    (∃ t, exec .fenc (fencAt [0x41] 8#32) = .next t ∧ t.result ≠ .ok) ∧
    ∃ t, exec .fenc (fencAt [0x41] 9#32) = .next t ∧ Within 0x100 9 0x108 ∧ ¬ Within 0x100 9 0x109 := by
  refine ⟨?_, ?_⟩
  · obtain ⟨t, h, hp⟩ := of_answers (o := exec .fenc (fencAt [0x41] 8#32)) (p := fun t => decide (t.result ≠ .ok))
      (by decide +kernel)
    exact ⟨t, h, by simpa using hp⟩
  · obtain ⟨t, h⟩ := exec_answers .fenc (fencAt [0x41] 9#32)
    exact ⟨t, h, by unfold Within; decide, by unfold Within; decide⟩

/-- Two blocks that differ in ACQUIRED and in registers that are no operands. -/
theorem witness_FrameCommandsReadOnlyTheirOperands :
    ∃ s s' t : State, s' ≠ s ∧ s'.cfg = s.cfg ∧ s'.powerOn = s.powerOn ∧ s'.mem = s.mem ∧ s'.fault = s.fault ∧
      s'.srcPtr = s.srcPtr ∧ s'.srcLen = s.srcLen ∧ s'.dstPtr = s.dstPtr ∧ s'.dstCap = s.dstCap ∧
      s'.frAddr = s.frAddr ∧ s'.frCtrl = s.frCtrl ∧ exec .fenc s = .next t := by
  obtain ⟨t, h⟩ := exec_answers .fenc (fencAt [0x41] 9#32)
  exact ⟨fencAt [0x41] 9#32, { fencAt [0x41] 9#32 with acquired := true, pktType := 9#32, outLen := 3#32 }, t,
    by decide +kernel, rfl, rfl, rfl, rfl, rfl, rfl, rfl, rfl, rfl, rfl, h⟩

theorem witness_PacketCommandsReadOnlyTheirOperands :
    (∃ t, exec .penc pencPayload = .next t) ∧ ({ pencPayload with acquired := true, srcPtr := 5#32 } : State) ≠ pencPayload ∧
    (∃ t, exec .pdec (pdecAt [0x18, 0x00, 0x20, 0x00]) = .next t) ∧
    ∃ t, exec .psize { base with pktPayLen := 128#32 } = .next t :=
  ⟨exec_answers .., by decide +kernel, exec_answers .., exec_answers ..⟩

theorem witness_OneTransactionPerRel :
    ((relAt 1#32 (.written 9)).fault = false ∧ ¬ ContractBroken .rel (relAt 1#32 (.written 9)) ∧
      ∃ t, exec .rel (relAt 1#32 (.written 9)) = .next t) ∧
    (∃ t, exec .fenc (fencAt [0x41] 9#32) = .next t) ∧ (∃ t, exec .rel faulted = .next t) ∧
    ContractBroken .rel base ∧ ∃ t, exec .rel base = .next t :=
  ⟨⟨rfl, by unfold ContractBroken; decide, exec_answers ..⟩, exec_answers .., exec_answers ..,
    by unfold ContractBroken; decide, exec_answers ..⟩

theorem witness_CapacityIsTheLargestThatFits : Config.vectors.wf = true ∧ Config.vectors.bufSize = 64 ∧
    (relAt 25#32 .error).srcLen.toNat ≤ cap (relAt 25#32 .error).cfg := by decide

/-- The second ACQ of program L3-4, and a reset of the block it leaves. -/
theorem witness_FaultIsStickyUntilReset :
    (∃ t, writeCmd 6#32 { base with acquired := true } = .next t ∧ t.fault = true) ∧
    (∃ t, step (facingCmd 6#32 { base with acquired := true }) = .next t ∧ t.fault = true) ∧
    ∃ t, step (facing .reset faulted) = .next t ∧ t.fault = false := by
  refine ⟨of_answers (p := fun t => t.fault) (by decide +kernel), of_answers (p := fun t => t.fault) (by decide +kernel), ?_⟩
  obtain ⟨t, h, hp⟩ := of_answers (o := step (facing .reset faulted)) (p := fun t => !t.fault) (by decide +kernel)
  exact ⟨t, h, by simpa using hp⟩

theorem witness_AcquiredChangesOnlyByAcqRelReset :
    (∃ t, step (facingCmd 6#32 base) = .next t ∧ t.acquired = true) ∧
    (∃ t, step (facingCmd 7#32 (relAt 1#32 (.written 9))) = .next t ∧ t.acquired = false) ∧
    (∃ t, step (facing .reset faulted) = .next t ∧ t.acquired = false) ∧
    (∃ t, step (waitingWith [.memRead 0, .reset]) = .next t ∧ t.acquired = false) ∧
    (∃ t, exec .acq base = .next t ∧ t.result = .ok) ∧
    (¬ ContractBroken .rel (relAt 1#32 (.written 9)) ∧ ¬ SinkSilent .rel (relAt 1#32 (.written 9)) ∧
      ∃ t, exec .rel (relAt 1#32 (.written 9)) = .next t) := by
  refine ⟨of_answers (p := fun t => t.acquired) (by decide +kernel), ?_, ?_, ?_, ?_,
    by unfold ContractBroken; decide, by unfold SinkSilent; decide, exec_answers ..⟩
  · obtain ⟨t, h, hp⟩ := of_answers (o := step (facingCmd 7#32 (relAt 1#32 (.written 9)))) (p := fun t => !t.acquired)
      (by decide +kernel)
    exact ⟨t, h, by simpa using hp⟩
  · obtain ⟨t, h, hp⟩ := of_answers (o := step (facing .reset faulted)) (p := fun t => !t.acquired) (by decide +kernel)
    exact ⟨t, h, by simpa using hp⟩
  · obtain ⟨t, h, hp⟩ := of_answers (o := step (waitingWith [.memRead 0, .reset])) (p := fun t => !t.acquired)
      (by decide +kernel)
    exact ⟨t, h, by simpa using hp⟩
  · obtain ⟨t, h, hp⟩ := of_answers witness_commands_end_in_ok.2.2.2.2.2.1
    exact ⟨t, h, by simpa using hp⟩

/-- A block with MEM written, one frame sent, the region acquired again and a FENC to come. -/
def busy : State :=
  { facingCmd 1#32 (fencAt [0x41] 9#32) with
    acquired := true
    sinkHistory := [{ frame := bytes [0x7E, 0x7B, 0x00, 0x41, 0xA5, 0x2F, 0x3E, 0xA6, 0x7E], answer := .ok }] }

theorem channel_frame : ChannelFrame Config.vectors (bytes [0x7E, 0x7B, 0x00, 0x41, 0xA5, 0x2F, 0x3E, 0xA6, 0x7E]) :=
  ⟨by decide, [0x41#8], by decide, by decide +kernel⟩

theorem busy_inv : Inv busy where
  config := by decide
  memory := by decide
  inside := by unfold MemInside; decide +kernel
  faulted := by unfold FaultMatchesResult; decide
  waits := nofun
  history := by
    intro r hr
    rw [show busy.sinkHistory = [{ frame := bytes [0x7E, 0x7B, 0x00, 0x41, 0xA5, 0x2F, 0x3E, 0xA6, 0x7E], answer := .ok }] from rfl,
      List.mem_singleton] at hr
    exact hr ▸ channel_frame

theorem waiting_inv (l : List Input) : Inv (waitingWith l) where
  config := by show Config.vectors.wf = true; decide
  memory := by show Memory.wf [(0x300, 0x41#8)]; decide
  inside := by show ∀ x ∈ [((0x300 : Nat), 0x41#8)], x.1 < 0x400; decide
  faulted := by show false = true ↔ Result.ok = .contractViolation ∨ Result.ok = .faulted; decide
  waits := by intro f hf; obtain rfl := Option.some.inj hf; exact ⟨rfl, rfl, channel_frame⟩
  history := nofun

theorem witness_StepKeepsTheInvariant :
    (Inv busy ∧ ∃ t, step busy = .next t ∧ t.result = .ok) ∧
    Inv (waitingWith [.reset]) ∧ ∃ t, step (waitingWith [.reset]) = .next t := by
  refine ⟨⟨busy_inv, ?_⟩, waiting_inv _, ?_⟩
  · obtain ⟨t, h, hp⟩ := of_answers (o := step busy) (p := fun t => decide (t.result = .ok)) (by decide +kernel)
    exact ⟨t, h, by simpa using hp⟩
  · obtain ⟨t, h, _⟩ := of_answers (o := step (waitingWith [.reset])) (p := fun _ => true) (by decide +kernel)
    exact ⟨t, h⟩

theorem witness_ResetMeetsTheInvariant : Config.vectors.wf = true ∧
    ({ memSize := 14, bufSize := 14, chBufBase := 0, chAddress := 0#8, chName := "a", regBase := 256 } : Config).wf = true := by
  decide

theorem witness_NothingElseStops :
    Inv busy ∧ HostKeepsToModel busy ∧ busy.waiting = none ∧ ∃ t, step busy = .next t :=
  ⟨busy_inv, by unfold HostKeepsToModel; decide, rfl,
    by obtain ⟨t, h, _⟩ := witness_StepKeepsTheInvariant.1.2; exact ⟨t, h⟩⟩

theorem witness_PointersAndConfigurationAreLeftAlone :
    (∃ t, exec .pdec (pdecAt [0x18, 0x00, 0x20, 0x00]) = .next t) ∧ ∃ t, step busy = .next t :=
  ⟨exec_answers .., witness_NothingElseStops.2.2.2⟩

theorem witness_FdecUndoesFenc :
    (∃ t, exec .fenc (fencAt [0x41] 9#32) = .next t ∧ t.result = .ok) ∧
    InRange (fencAt [0x41] 9#32).cfg 0x200#32 1#32 ∧ (fencAt [0x41] 9#32).srcLen.toNat ≤ (1#32 : Word).toNat := by
  refine ⟨?_, by decide, by decide⟩
  obtain ⟨t, h, hp⟩ := of_answers witness_commands_end_in_ok.1
  exact ⟨t, h, by simpa using hp⟩

theorem witness_PdecUndoesPenc : pencPayload.cfg.wf = true ∧ ∃ t, exec .penc pencPayload = .next t ∧ t.result = .ok := by
  refine ⟨by decide, ?_⟩
  obtain ⟨t, h, hp⟩ := of_answers witness_commands_end_in_ok.2.2.1
  exact ⟨t, h, by simpa using hp⟩

/-- Vectors PD1 (accepted) and PD7 (not). -/
theorem witness_PdecAcceptsExactlyTheEncodings :
    (∀ l ∈ [[0x18, 0x00, 0x20, 0x00], [0x18, 0x01]], (pdecAt l).fault = false ∧
      InRange (pdecAt l).cfg (pdecAt l).srcPtr (pdecAt l).srcLen) := by decide

theorem witness_UnmappedOffsetsReadZeroIgnoreWrites :
    NextInput (facing (.regWrite 32 0x44 9#32) base) (.regWrite 32 0x44 9#32) [] ∧
    NextInput (facing (.regWrite 32 0xFC 9#32) base) (.regWrite 32 0xFC 9#32) [] :=
  ⟨facing_next _ rfl rfl, facing_next _ rfl rfl⟩

theorem witness_ReadOnlyAndReservedBits :
    NextInput (facing (.regWrite 32 (regOffset .outLen) 9#32) base) (.regWrite 32 (regOffset .outLen) 9#32) [] ∧
    NextInput (facing (.regWrite 32 (regOffset .frAddr) 0x17B#32) base) (.regWrite 32 (regOffset .frAddr) 0x17B#32) [] ∧
    NextInput (facing (.regRead 32 0xFC) base) (.regRead 32 0xFC) [] :=
  ⟨facing_next _ rfl rfl, facing_next _ rfl rfl, facing_next _ rfl rfl⟩

theorem witness_RegisterWriteIsReadBack (r : Reg) :
    NextInput (facing (.regWrite 32 (regOffset r) 0x17B#32) faulted) (.regWrite 32 (regOffset r) 0x17B#32) [] ∧
    Reg.frAddr ∉ [Reg.cmd, .status, .outLen, .outAux] ∧ Reg.srcPtr ∉ [Reg.cmd, .status, .outLen, .outAux] :=
  ⟨facing_next _ rfl rfl, by decide, by decide⟩

/-- A 16-bit access, a misaligned one, one past the window, and MEM at MEM_SIZE; each is refused. -/
theorem witness_AccessOutsideTheModelIsRefused :
    (∀ i, NextInput (facing i base) i []) ∧ base.cfg.memSize = 0x400 ∧
    refuses (step (facing (.regWrite 16 0x08 0#32) base)) .regAccessOutsideModel = true ∧
    refuses (step (facing (.regRead 32 0x09) base)) .regAccessOutsideModel = true ∧
    refuses (step (facing (.regRead 32 0x100) base)) .regAccessOutsideModel = true ∧
    refuses (step (facing (.memRead 0x400) base)) .memAccessOutsideModel = true :=
  ⟨fun _ => facing_next _ rfl rfl, rfl, by decide +kernel, by decide +kernel, by decide +kernel, by decide +kernel⟩

/-- The last byte of MEM, and two bytes that end there. -/
theorem witness_HostReadsAndWritesBytesOfMem :
    NextInput (facing (.memRead 0x3FF) base) (.memRead 0x3FF) [] ∧ 0x3FF < base.cfg.memSize ∧
    ({ base with inputs := memLineInputs 0x3FE [1#8, 2#8] ++ [.reset] } : State).waiting = none ∧
    0x3FE + [1#8, 2#8].length ≤ base.cfg.memSize :=
  ⟨facing_next _ rfl rfl, by decide, rfl, by decide⟩

theorem witness_ResetKeepsOnlyMem :
    NextInput (facing .reset busy) .reset [] ∧
    ((waitingWith [.reset]).cfg.wf = true ∧ (waitingWith [.reset]).waiting ≠ none ∧
      (waitingWith [.reset]).inputs = .reset :: []) :=
  ⟨facing_next _ rfl rfl, by decide, by decide, rfl⟩

theorem witness_ResetStateIsIdle : Config.vectors.wf = true := by decide

theorem witness_BrokenConfigurationIsRefused :
    2 ^ 32 < ({ base.cfg with memSize := 2 ^ 32 + 1 } : Config).memSize ∧
    ({ base.cfg with bufSize := 13 } : Config).bufSize < 14 ∧
    refuses (step { base with cfg := { base.cfg with chBufBase := 0x3C1 } }) .badConfig = true := by decide +kernel

end Sys2Proof.Tests
end

namespace Sys2Proof.Machine

/-! ### Frames: what frameEncode produces, frameDecode accepts (40_frame_codec.md R104, R105) -/

/-- Unescaping takes the escape of one byte off the front and gives that byte back. -/
theorem unescape_esc_append (b : Byte) (l : List Byte) :
    unescape (esc b ++ l) = (unescape l).map fun raw => b :: raw := by
  by_cases hb : b = FLAG ∨ b = ESC
  · have hmasked : b ^^^ MASK ≠ FLAG := by rcases hb with rfl | rfl <;> decide
    rw [esc_special hb, List.cons_append, List.cons_append, List.nil_append, unescape_escaped l hmasked, mask_mask]
  · obtain ⟨hflag, hesc⟩ := not_or.1 hb
    rw [esc_plain hflag hesc, List.singleton_append, unescape_plain l hflag hesc]

theorem unescape_escapeAll (l : List Byte) : unescape (escapeAll l) = .ok l := by
  induction l with
  | nil => exact unescape_nil
  | cons b l ih => rw [escapeAll_cons, unescape_esc_append, ih]; rfl

theorem checkRaw_frameRaw (a c : Byte) (p : List Byte) :
    checkRaw (frameRaw a c p) = .ok { address := a, control := c, payload := p } := by
  have hbody : (frameRaw a c p).length - 4 = (a :: c :: p).length := by simp
  have hlong : ¬ (frameRaw a c p).length < 6 := by simp
  rw [checkRaw, if_neg hlong, hbody]
  simp [frameRaw]

theorem frameDecode_frameEncode (a c : Byte) (p : List Byte) :
    frameDecode (frameEncode a c p) = .ok { address := a, control := c, payload := p } := by
  rw [frameEncode_eq, frameDecode_delimited, unescape_escapeAll]
  exact checkRaw_frameRaw a c p

theorem esc_length_le (b : Byte) : (esc b).length ≤ 2 := by
  unfold esc
  split <;> simp

theorem escapeAll_length_le (l : List Byte) : (escapeAll l).length ≤ 2 * l.length := by
  induction l with
  | nil => simp
  | cons b l ih =>
    have hb := esc_length_le b
    rw [escapeAll_cons, List.length_append, List.length_cons]
    omega

theorem frameEncode_length_le (a c : Byte) (p : List Byte) : (frameEncode a c p).length ≤ 2 * p.length + 14 := by
  have h := escapeAll_length_le (frameRaw a c p)
  rw [frameRaw_length] at h
  rw [frameEncode_length]
  omega

/-! ### Configurations (00_scope.md R6) -/

theorem Config.wf_iff (c : Config) :
    c.wf = true ↔
      c.memSize ≤ 2 ^ 32 ∧ 14 ≤ c.bufSize ∧ c.chBufBase + c.bufSize ≤ c.memSize ∧ c.regBase % 256 = 0 := by
  simp [Config.wf, and_assoc]

theorem step_badConfig {s : State} (hc : s.cfg.wf = false) : step s = .refused .badConfig := by
  simp [step, stepBus, hc]

/-- Twice the capacity leaves room in BUF_SIZE for a frame's other bytes (42_channel_output.md R161). -/
theorem two_mul_cap_add_le {c : Config} (hc : c.wf = true) : 2 * cap c + 14 ≤ c.bufSize := by
  obtain ⟨-, hbuf, -, -⟩ := (Config.wf_iff c).1 hc
  unfold cap
  omega

/-- The frame of a REL within the capacity is one the channel may send. -/
theorem channelFrame_relFrame {s : State} (hc : s.cfg.wf = true) (hn : s.srcLen.toNat ≤ cap s.cfg) :
    ChannelFrame s.cfg (relFrame s) := by
  have hlen : (relFrame s).length ≤ 2 * (usedBytes s).length + 14 := frameEncode_length_le ..
  have hcap := two_mul_cap_add_le hc
  rw [usedBytes_length] at hlen
  exact ⟨by omega, usedBytes s, by rwa [usedBytes_length], frameDecode_frameEncode ..⟩

/-! ### The invariant under each operation -/

section
variable {s t : State}

/-- The fields that Inv reads. -/
def invFields (s : State) : Config × Memory × Result × Bool × Bool × Option (List Byte) × List SinkRecord :=
  (s.cfg, s.mem, s.result, s.acquired, s.fault, s.waiting, s.sinkHistory)

theorem invFields_eq_iff :
    invFields t = invFields s ↔
      t.cfg = s.cfg ∧ t.mem = s.mem ∧ t.result = s.result ∧ t.acquired = s.acquired ∧ t.fault = s.fault ∧
        t.waiting = s.waiting ∧ t.sinkHistory = s.sinkHistory := by
  simp [invFields]

theorem Inv.congr (h : Inv s) (he : invFields t = invFields s) : Inv t := by
  obtain ⟨hcfg, hmem, hresult, hacq, hfault, hwait, hhist⟩ := invFields_eq_iff.1 he
  obtain ⟨config, memory, inside, faulted, waits, history⟩ := h
  constructor
  · rwa [hcfg]
  · rwa [hmem]
  · rwa [MemInside, hmem, hcfg]
  · rwa [FaultMatchesResult, hfault, hresult]
  · rwa [WaitingIsARel, hwait, hacq, hfault, hcfg]
  · rwa [HistorySound, hhist, hcfg]

theorem Inv.setOutLen (h : Inv s) (w : Word) : Inv (s.setOutLen w) := h.congr rfl

theorem Inv.setOutAux (h : Inv s) (w : Word) : Inv (s.setOutAux w) := h.congr rfl

theorem Inv.setInputs (h : Inv s) (l : List Input) : Inv (s.setInputs l) := h.congr rfl

theorem Inv.setResult (h : Inv s) {r : Result}
    (hr : s.fault = true ↔ r = .contractViolation ∨ r = .faulted) : Inv (s.setResult r) :=
  ⟨h.config, h.memory, h.inside, hr, h.waits, h.history⟩

/-- A result of an unfaulted block is none of the two that belong to FAULT = 1. -/
theorem Inv.setResult_unfaulted (h : Inv s) (hf : s.fault = false) {r : Result}
    (hr : r ∉ [.contractViolation, .faulted]) : Inv (s.setResult r) :=
  h.setResult (by simpa [hf] using hr)

theorem Inv.setViolation (h : Inv s) (hw : s.waiting = none) :
    Inv ((s.setFault true).setResult .contractViolation) where
  config := h.config
  memory := h.memory
  inside := h.inside
  faulted := by simp [FaultMatchesResult]
  waits := by simp [WaitingIsARel, hw]
  history := h.history

theorem Inv.setAcquired (h : Inv s) (hw : s.waiting = none) (b : Bool) : Inv (s.setAcquired b) where
  config := h.config
  memory := h.memory
  inside := h.inside
  faulted := h.faulted
  waits := by simp [WaitingIsARel, hw]
  history := h.history

theorem Inv.setWaiting_some (h : Inv s) (ha : s.acquired = true) (hf : s.fault = false) {f : List Byte}
    (hframe : ChannelFrame s.cfg f) : Inv (s.setWaiting (some f)) where
  config := h.config
  memory := h.memory
  inside := h.inside
  faulted := h.faulted
  waits := by
    intro g hg
    obtain rfl := Option.some.inj hg
    exact ⟨ha, hf, hframe⟩
  history := h.history

theorem Inv.recordSink (h : Inv s) {r : SinkRecord} (hr : ChannelFrame s.cfg r.frame) : Inv (s.recordSink r) where
  config := h.config
  memory := h.memory
  inside := h.inside
  faulted := h.faulted
  waits := h.waits
  history := by
    intro q hq
    rcases List.mem_append.1 hq with hq | hq
    · exact h.history q hq
    · rwa [List.mem_singleton.1 hq]

theorem Inv.memWrite_inside (h : Inv s) {a : Nat} {v : List Byte} (hv : a + v.length ≤ s.cfg.memSize) :
    Inv (memWrite s a v) where
  config := h.config
  memory := Memory.storeBytes_wf a v h.memory
  inside := by
    intro x hx
    rcases Memory.mem_storeBytes hx with hx | ⟨-, hlt⟩
    · exact h.inside x hx
    · exact Nat.lt_of_lt_of_le hlt hv
  faulted := h.faulted
  waits := h.waits
  history := h.history

theorem Inv.applyReset_keeps (h : Inv s) : Inv (applyReset s) where
  config := h.config
  memory := h.memory
  inside := h.inside
  faulted := by simp [FaultMatchesResult]
  waits := nofun
  history := nofun

/-! ### The invariant under each command -/

theorem deliver_keeps_inv {out : List Byte} {more : State → State} (h : Inv s) (hf : s.fault = false)
    (hr : InRange s.cfg s.dstPtr s.dstCap) (hmore : ∀ u, invFields (more u) = invFields u)
    (hd : deliver out more s = .next t) : Inv t := by
  rcases deliver_next hd with ⟨-, rfl⟩ | ⟨hfits, rfl⟩
  · exact (h.setOutLen _).setResult_unfaulted (by simpa using hf) (by decide)
  · have hstored : Inv (memWrite s s.dstPtr.toNat out) :=
      h.memWrite_inside (Nat.le_trans (Nat.add_le_add_left hfits _) hr)
    have hafter := hmore (memWrite s s.dstPtr.toNat out)
    obtain ⟨-, -, -, -, hfault, -⟩ := invFields_eq_iff.1 hafter
    exact ((hstored.congr hafter).setOutLen _).setResult_unfaulted (by simpa [hfault] using hf) (by decide)

theorem sinkWriteAndRelease_keeps_inv {f : List Byte} (h : Inv s) (hw : s.waiting = none) (hf : s.fault = false)
    (ha : s.acquired = true) (hframe : ChannelFrame s.cfg f) (hs : sinkWriteAndRelease f s = .next t) : Inv t := by
  have htaken : Inv s.takeReply := h.congr rfl
  rcases sinkWriteAndRelease_next hs with ⟨-, rfl⟩ | ⟨a, -, rfl⟩
  · exact htaken.setWaiting_some ha hf hframe
  · have hreleased : Inv ((s.takeReply.recordSink { frame := f, answer := a }).setAcquired false) :=
      Inv.setAcquired (Inv.recordSink (r := { frame := f, answer := a }) htaken hframe) hw false
    exact (hreleased.setOutLen _).setResult_unfaulted (by simpa using hf) (by cases a <;> decide)

theorem fencBody_keeps_inv (h : Inv s) (hf : s.fault = false) (hb : fencBody s = .next t) : Inv t := by
  rcases fencBody_next hb with rfl | ⟨⟨-, hdst⟩, hd⟩
  · exact h.setResult_unfaulted hf (by decide)
  · exact deliver_keeps_inv h hf hdst (fun _ => rfl) hd

theorem fdecBody_keeps_inv (h : Inv s) (hf : s.fault = false) (hb : fdecBody s = .next t) : Inv t := by
  rcases fdecBody_next hb with rfl | ⟨⟨-, hdst⟩, ⟨e, -, rfl⟩ | ⟨d, -, hd⟩⟩
  · exact h.setResult_unfaulted hf (by decide)
  · exact h.setResult_unfaulted hf (by decide)
  · exact deliver_keeps_inv (more := fun u => u.setFrameFields d.address d.control) h hf hdst (fun _ => rfl) hd

theorem pencBody_keeps_inv (h : Inv s) (hf : s.fault = false) (hb : pencBody s = .next t) : Inv t := by
  rcases pencBody_next hb with rfl | ⟨⟨-, hdst⟩, hd⟩
  · exact h.setResult_unfaulted hf (by decide)
  · exact deliver_keeps_inv h hf hdst (fun _ => rfl) hd

theorem pdecBody_keeps_inv (h : Inv s) (hf : s.fault = false) (hb : pdecBody s = .next t) : Inv t := by
  rcases pdecBody_next hb with rfl | ⟨-, ⟨e, -, rfl⟩ | ⟨e, p, -, rfl⟩⟩
  · exact h.setResult_unfaulted hf (by decide)
  · exact h.setResult_unfaulted hf (by decide)
  · have hset : Inv (s.setEnvelope e p) := h.congr rfl
    exact (hset.setOutLen _).setResult_unfaulted (by simpa using hf) (by decide)

theorem psizeBody_keeps_inv (h : Inv s) (hf : s.fault = false) (hb : psizeBody s = .next t) : Inv t := by
  obtain rfl := psizeBody_next hb
  exact ((h.setOutLen _).setOutAux _).setResult_unfaulted (by simpa using hf) (by decide)

theorem acqBody_keeps_inv (h : Inv s) (hw : s.waiting = none) (hf : s.fault = false) (hb : acqBody s = .next t) :
    Inv t := by
  rcases acqBody_next hb with ⟨-, rfl⟩ | ⟨-, rfl⟩
  · exact h.setViolation hw
  · exact (((h.setAcquired hw true).setOutAux _).setOutLen _).setResult_unfaulted (by simpa using hf) (by decide)

theorem relBody_keeps_inv (h : Inv s) (hw : s.waiting = none) (hf : s.fault = false) (hb : relBody s = .next t) :
    Inv t := by
  rcases relBody_next hb with ⟨-, rfl⟩ | ⟨ha, hn, hs⟩
  · exact h.setViolation hw
  · exact sinkWriteAndRelease_keeps_inv h hw hf ha (channelFrame_relFrame h.config hn) hs

theorem withPrologue_keeps_inv {body : State → Answer} (h : Inv s)
    (hbody : s.fault = false → body s = .next t → Inv t) (hp : withPrologue body s = .next t) : Inv t := by
  rcases withPrologue_next hp with ⟨hf, rfl⟩ | ⟨hf, hb⟩
  · exact h.setResult (by simp [hf])
  · exact hbody hf hb

theorem exec_keeps_inv (i : Instr) (h : Inv s) (hw : s.waiting = none) (he : exec i s = .next t) : Inv t := by
  cases i with
  | fenc => exact withPrologue_keeps_inv h (fencBody_keeps_inv h) he
  | fdec => exact withPrologue_keeps_inv h (fdecBody_keeps_inv h) he
  | penc => exact withPrologue_keeps_inv h (pencBody_keeps_inv h) he
  | pdec => exact withPrologue_keeps_inv h (pdecBody_keeps_inv h) he
  | psize => exact withPrologue_keeps_inv h (psizeBody_keeps_inv h) he
  | acq => exact withPrologue_keeps_inv h (acqBody_keeps_inv h hw) he
  | rel => exact withPrologue_keeps_inv h (relBody_keeps_inv h hw) he

/-! ### The invariant under each input -/

theorem writeCmd_keeps_inv {w : Word} (h : Inv s) (hw : s.waiting = none) (hc : writeCmd w s = .next t) : Inv t := by
  rcases writeCmd_next hc with ⟨hf, rfl⟩ | ⟨hf, -, rfl⟩ | ⟨-, i, -, he⟩
  · exact h.setResult (by simp [hf])
  · exact h.setResult (by simp [hf])
  · exact exec_keeps_inv i h hw he

theorem invFields_writeReg (s : State) (v : Word) (r : Reg) : invFields (writeReg s v r) = invFields s := by
  cases r <;> rfl

theorem writeOffset_keeps_inv {off : Nat} {v : Word} (h : Inv s) (hw : s.waiting = none)
    (ho : writeOffset off v s = .next t) : Inv t := by
  rcases writeOffset_next ho with ⟨-, rfl⟩ | ⟨-, hc⟩ | ⟨r, -, -, rfl⟩
  · exact h
  · exact writeCmd_keeps_inv h hw hc
  · exact h.congr (invFields_writeReg s v r)

theorem serve_keeps_inv {i : Input} (h : Inv s) (hw : s.waiting = none) (hs : serve i s = .next t) : Inv t := by
  rcases serve_next hs with ⟨off, v, -, -, ho⟩ | ⟨off, -, -, rfl⟩ | ⟨a, b, -, ha, rfl⟩ | ⟨a, -, -, rfl⟩ | ⟨-, rfl⟩
  · exact writeOffset_keeps_inv h hw ho
  · exact h.congr rfl
  · exact h.memWrite_inside ha
  · exact h.congr rfl
  · exact h.applyReset_keeps

theorem step_keeps_inv (h : Inv s) (hs : step s = .next t) : Inv t := by
  obtain ⟨-, ⟨f, l, -, -, rfl⟩ | ⟨-, -, rfl⟩ | ⟨i, l, hw, -, hserve⟩⟩ := step_next hs
  · exact (h.setInputs l).applyReset_keeps
  · exact h
  · exact serve_keeps_inv (h.setInputs l) hw hserve

end

/-! ### What no command touches: the configuration, the power-on, the inputs and what the host has read -/

section
variable {s t : State}

/-- The fields that belong to the block's surroundings (10_state.md R49; logs 1, 4, 10 and 11). -/
def surroundings (s : State) : Config × Nat × List Input × List Observation :=
  (s.cfg, s.powerOn, s.inputs, s.observed)

theorem surroundings_eq_iff :
    surroundings t = surroundings s ↔
      t.cfg = s.cfg ∧ t.powerOn = s.powerOn ∧ t.inputs = s.inputs ∧ t.observed = s.observed := by
  simp [surroundings]

theorem surroundings_deliver {out : List Byte} {more : State → State}
    (hmore : ∀ u, surroundings (more u) = surroundings u) (hd : deliver out more s = .next t) :
    surroundings t = surroundings s := by
  rcases deliver_next hd with ⟨-, rfl⟩ | ⟨-, rfl⟩
  · rfl
  · simpa [surroundings] using hmore (memWrite s s.dstPtr.toNat out)

theorem surroundings_sinkWriteAndRelease {f : List Byte} (hs : sinkWriteAndRelease f s = .next t) :
    surroundings t = surroundings s := by
  rcases sinkWriteAndRelease_next hs with ⟨-, rfl⟩ | ⟨a, -, rfl⟩
  · rfl
  · simp [surroundings]

theorem surroundings_withPrologue {body : State → Answer}
    (hbody : body s = .next t → surroundings t = surroundings s) (h : withPrologue body s = .next t) :
    surroundings t = surroundings s := by
  rcases withPrologue_next h with ⟨-, rfl⟩ | ⟨-, hb⟩
  · rfl
  · exact hbody hb

theorem surroundings_exec (i : Instr) (he : exec i s = .next t) : surroundings t = surroundings s := by
  cases i <;> refine surroundings_withPrologue (fun hb => ?_) he
  case fenc =>
    rcases fencBody_next hb with rfl | ⟨-, hd⟩
    · rfl
    · exact surroundings_deliver (fun _ => rfl) hd
  case fdec =>
    rcases fdecBody_next hb with rfl | ⟨-, ⟨e, -, rfl⟩ | ⟨d, -, hd⟩⟩
    · rfl
    · rfl
    · exact surroundings_deliver (more := fun u => u.setFrameFields d.address d.control) (fun _ => rfl) hd
  case penc =>
    rcases pencBody_next hb with rfl | ⟨-, hd⟩
    · rfl
    · exact surroundings_deliver (fun _ => rfl) hd
  case pdec => rcases pdecBody_next hb with rfl | ⟨-, ⟨e, -, rfl⟩ | ⟨e, p, -, rfl⟩⟩ <;> rfl
  case psize => obtain rfl := psizeBody_next hb; rfl
  case acq => rcases acqBody_next hb with ⟨-, rfl⟩ | ⟨-, rfl⟩ <;> rfl
  case rel =>
    rcases relBody_next hb with ⟨-, rfl⟩ | ⟨-, -, hs⟩
    · rfl
    · exact surroundings_sinkWriteAndRelease hs

theorem surroundings_writeOffset {off : Nat} {v : Word} (h : writeOffset off v s = .next t) :
    surroundings t = surroundings s := by
  rcases writeOffset_next h with ⟨-, rfl⟩ | ⟨-, hc⟩ | ⟨r, -, -, rfl⟩
  · rfl
  · rcases writeCmd_next hc with ⟨-, rfl⟩ | ⟨-, -, rfl⟩ | ⟨-, i, -, he⟩
    · rfl
    · rfl
    · exact surroundings_exec i he
  · cases r <;> rfl

/-- Serving an input takes nothing from the inputs after it and keeps the configuration. -/
theorem serve_keeps_cfg_inputs {i : Input} (h : serve i s = .next t) : t.cfg = s.cfg ∧ t.inputs = s.inputs := by
  rcases serve_next h with ⟨off, v, -, -, ho⟩ | ⟨off, -, -, rfl⟩ | ⟨a, b, -, -, rfl⟩ | ⟨a, -, -, rfl⟩ | ⟨-, rfl⟩
  · obtain ⟨hcfg, -, hinputs, -⟩ := surroundings_eq_iff.1 (surroundings_writeOffset ho)
    exact ⟨hcfg, hinputs⟩
  all_goals exact ⟨rfl, rfl⟩

/-- A step keeps the configuration and brings in no input. -/
theorem step_keeps_cfg_inputs_subset (h : step s = .next t) : t.cfg = s.cfg ∧ t.inputs ⊆ s.inputs := by
  obtain ⟨-, ⟨f, l, -, hl, rfl⟩ | ⟨-, -, rfl⟩ | ⟨i, l, -, hi, hserve⟩⟩ := step_next h
  · obtain ⟨before, after, hin, rfl, -⟩ := takeReset_some hl
    refine ⟨rfl, ?_⟩
    rw [hin]
    exact List.append_subset.2 ⟨List.subset_append_left .., fun i hi => by simp [hi]⟩
  · exact ⟨rfl, List.Subset.refl _⟩
  · obtain ⟨hcfg, hinputs⟩ := serve_keeps_cfg_inputs hserve
    rw [hinputs, hi]
    exact ⟨hcfg, List.subset_cons_self i l⟩

theorem step_keeps_hostKeepsToModel (hk : HostKeepsToModel s) (h : step s = .next t) : HostKeepsToModel t := by
  obtain ⟨hcfg, hsub⟩ := step_keeps_cfg_inputs_subset h
  intro i hi
  rw [hcfg]
  exact hk i (hsub hi)

end

/-! ### Progress -/

theorem writeCmd_answers (w : Word) (s : State) : ∃ t, writeCmd w s = .next t := by
  unfold writeCmd
  split
  · exact ⟨_, rfl⟩
  · split
    · exact ⟨_, rfl⟩
    · exact exec_answers _ s

theorem writeOffset_answers (off : Nat) (v : Word) (s : State) : ∃ t, writeOffset off v s = .next t := by
  unfold writeOffset
  split
  · exact ⟨_, rfl⟩
  · exact writeCmd_answers v s
  · exact ⟨_, rfl⟩

/-- An idle block serves every input that the spec has a meaning for. -/
theorem serve_answers {i : Input} {s : State} (hi : i.wf s.cfg = true) : ∃ t, serve i s = .next t := by
  cases i with
  | regWrite width off v =>
    obtain ⟨t, ht⟩ := writeOffset_answers off v s
    exact ⟨t, (if_pos hi).trans ht⟩
  | regRead width off => exact ⟨_, if_pos hi⟩
  | memWrite addr b => exact ⟨_, if_pos hi⟩
  | memRead addr => exact ⟨_, if_pos hi⟩
  | reset => exact ⟨_, rfl⟩

theorem runs_of_idle {s : State} (hc : s.cfg.wf = true) (hk : HostKeepsToModel s) (hw : s.waiting = none) :
    Runs s := by
  cases hin : s.inputs with
  | nil => exact ⟨s, by simp [step, stepBus, stepIdle, hc, hw, hin]⟩
  | cons i l =>
    have hi : i.wf (s.setInputs l).cfg = true := hk i (by simp [hin])
    rw [Runs, step_idle hc hw hin]
    exact serve_answers hi

/-! ### The obligations of 00_scope.md -/

/-- Settles O45: each case of step_next keeps Inv; the frame of a REL that waits or is recorded is sound because REL has
checked its length against CAP. -/
theorem stepKeepsTheInvariant : Obligations.StepKeepsTheInvariant :=
  fun _ _ h hs => step_keeps_inv h hs

/-- Settles O47: an idle block serves every input the spec has a meaning for, and a step brings in no input and keeps the
configuration that says which inputs those are. -/
theorem nothingElseStops : Obligations.NothingElseStops :=
  fun _ h hk => ⟨runs_of_idle h.config hk, fun _ hs => step_keeps_hostKeepsToModel hk hs⟩

/-- Settles O60: each of the three constraints is a conjunct of Config.wf. -/
theorem brokenConfigurationIsRefused : Obligations.BrokenConfigurationIsRefused := by
  intro s hbroken
  refine step_badConfig (Bool.eq_false_iff.2 fun hwf => ?_)
  obtain ⟨hmem, hbuf, hfits, -⟩ := (Config.wf_iff s.cfg).1 hwf
  omega

end Sys2Proof.Machine

namespace Sys2Proof.Machine

/-! ### The frame of each command (10_state.md R48, 20_memory.md R52, R55) -/

section
variable {s t : State}

/-- Storing an output keeps every byte outside it, when what is done after the store keeps MEM. -/
theorem readByte_deliver {out : List Byte} {more : State → State}
    (hmore : ∀ u, (more u).mem = u.mem ∧ (more u).powerOn = u.powerOn) (hd : deliver out more s = .next t) :
    ∀ a, ¬ Within s.dstPtr.toNat out.length a → readByte t a = readByte s a := by
  intro a ha
  rcases deliver_next hd with ⟨-, rfl⟩ | ⟨-, rfl⟩
  · rfl
  · obtain ⟨hmem, hpow⟩ := hmore (memWrite s s.dstPtr.toNat out)
    exact (readByte_congr hmem hpow a).trans (readByte_memWrite_outside s _ a out ha)

/-- The frame of a command that checks its regions and then stores `out`, as FENC and PENC do. -/
theorem frame_of_deliver {body : State → Answer} {out : List Byte}
    (hbody : body s = .next t → t = s.setResult .badRange ∨ deliver out id s = .next t)
    (h : withPrologue body s = .next t) :
    t = { s with outLen := t.outLen, result := t.result, mem := t.mem } ∧
      ∀ a, ¬ Within s.dstPtr.toNat out.length a → readByte t a = readByte s a := by
  rcases withPrologue_next h with ⟨-, rfl⟩ | ⟨-, hb⟩
  · exact ⟨rfl, fun _ _ => rfl⟩
  · rcases hbody hb with rfl | hd
    · exact ⟨rfl, fun _ _ => rfl⟩
    · refine ⟨?_, readByte_deliver (fun _ => ⟨rfl, rfl⟩) hd⟩
      rcases deliver_next hd with ⟨-, rfl⟩ | ⟨-, rfl⟩ <;> rfl

theorem fenc_frame (h : exec .fenc s = .next t) :
    t = { s with outLen := t.outLen, result := t.result, mem := t.mem } ∧
      ∀ a, ¬ Within s.dstPtr.toNat (frameEncode s.frAddr s.frCtrl (srcBytes s)).length a →
        readByte t a = readByte s a :=
  frame_of_deliver (body := fencBody) (fun hb => (fencBody_next hb).imp_right And.right) h

theorem penc_frame (h : exec .penc s = .next t) :
    t = { s with outLen := t.outLen, result := t.result, mem := t.mem } ∧
      ∀ a, ¬ Within s.dstPtr.toNat (envelopeEncode (pktEnvelope s)).length a → readByte t a = readByte s a :=
  frame_of_deliver (body := pencBody) (fun hb => (pencBody_next hb).imp_right And.right) h

/-- FDEC stores the payload of a source that decodes, and otherwise changes RESULT alone. -/
theorem fdec_next (h : exec .fdec s = .next t) :
    (t.result ≠ .ok ∧ t = s.setResult t.result) ∨
    ∃ d, frameDecode (srcBytes s) = .ok d ∧
      deliver d.payload (fun u => u.setFrameFields d.address d.control) s = .next t := by
  rcases withPrologue_next h with ⟨-, rfl⟩ | ⟨-, hb⟩
  · exact .inl ⟨nofun, rfl⟩
  · rcases fdecBody_next hb with rfl | ⟨-, ⟨e, -, rfl⟩ | ⟨d, hdec, hd⟩⟩
    · exact .inl ⟨nofun, rfl⟩
    · exact .inl ⟨nofun, rfl⟩
    · exact .inr ⟨d, hdec, hd⟩

theorem fdec_frame (h : exec .fdec s = .next t) :
    t = { s with frAddr := t.frAddr, frCtrl := t.frCtrl, outLen := t.outLen, result := t.result, mem := t.mem } ∧
      (t.result ≠ .ok → t.frAddr = s.frAddr ∧ t.frCtrl = s.frCtrl) := by
  rcases fdec_next h with ⟨-, ht⟩ | ⟨d, -, hd⟩
  · rw [ht]; exact ⟨rfl, fun _ => ⟨rfl, rfl⟩⟩
  · rcases deliver_next hd with ⟨-, rfl⟩ | ⟨-, rfl⟩
    · exact ⟨rfl, fun _ => ⟨rfl, rfl⟩⟩
    · exact ⟨rfl, fun hne => absurd rfl hne⟩

theorem fdec_readByte {d : Decoded} (hdec : frameDecode (srcBytes s) = .ok d) (h : exec .fdec s = .next t) :
    ∀ a, ¬ Within s.dstPtr.toNat d.payload.length a → readByte t a = readByte s a := by
  rcases fdec_next h with ⟨-, ht⟩ | ⟨d', hdec', hd⟩
  · rw [ht]; exact fun _ _ => rfl
  · obtain rfl : d = d' := Except.ok.inj (hdec.symm.trans hdec')
    exact readByte_deliver (more := fun u => u.setFrameFields d.address d.control) (fun _ => ⟨rfl, rfl⟩) hd

theorem fdec_readByte_of_corrupt (hbad : ∀ d, frameDecode (srcBytes s) ≠ .ok d) (h : exec .fdec s = .next t) :
    ∀ a, readByte t a = readByte s a := by
  rcases fdec_next h with ⟨-, ht⟩ | ⟨d, hdec, -⟩
  · rw [ht]; exact fun _ => rfl
  · exact absurd hdec (hbad d)

theorem pdec_frame (h : exec .pdec s = .next t) :
    t = { s with pktType := t.pktType, pktChannel := t.pktChannel, pktService := t.pktService,
                 pktMethod := t.pktMethod, pktStatus := t.pktStatus, pktPayPtr := t.pktPayPtr,
                 pktPayLen := t.pktPayLen, outLen := t.outLen, result := t.result } := by
  rcases withPrologue_next h with ⟨-, rfl⟩ | ⟨-, hb⟩
  · rfl
  · rcases pdecBody_next hb with rfl | ⟨-, ⟨e, -, rfl⟩ | ⟨e, p, -, rfl⟩⟩ <;> rfl

theorem psize_frame (h : exec .psize s = .next t) :
    t = { s with outLen := t.outLen, outAux := t.outAux, result := t.result } := by
  rcases withPrologue_next h with ⟨-, rfl⟩ | ⟨-, hb⟩
  · rfl
  · obtain rfl := psizeBody_next hb; rfl

theorem acq_frame (h : exec .acq s = .next t) :
    t = { s with outLen := t.outLen, outAux := t.outAux, acquired := t.acquired, fault := t.fault,
                 result := t.result } := by
  rcases withPrologue_next h with ⟨-, rfl⟩ | ⟨-, hb⟩
  · rfl
  · rcases acqBody_next hb with ⟨-, rfl⟩ | ⟨-, rfl⟩ <;> rfl

theorem sinkWriteAndRelease_frame {f : List Byte} (h : sinkWriteAndRelease f s = .next t) :
    t = { s with outLen := t.outLen, acquired := t.acquired, fault := t.fault, result := t.result,
                 sinkHistory := t.sinkHistory, waiting := t.waiting, sinkReplies := t.sinkReplies,
                 sinkCount := t.sinkCount } := by
  rcases sinkWriteAndRelease_next h with ⟨-, rfl⟩ | ⟨a, -, rfl⟩
  · rfl
  · simp only [State.takeReply, State.recordSink, State.setAcquired, State.setOutLen, State.setResult]

theorem rel_frame (h : exec .rel s = .next t) :
    t = { s with outLen := t.outLen, acquired := t.acquired, fault := t.fault, result := t.result,
                 sinkHistory := t.sinkHistory, waiting := t.waiting, sinkReplies := t.sinkReplies,
                 sinkCount := t.sinkCount } := by
  rcases withPrologue_next h with ⟨-, rfl⟩ | ⟨-, hb⟩
  · rfl
  · rcases relBody_next hb with ⟨-, rfl⟩ | ⟨-, -, hs⟩
    · rfl
    · exact sinkWriteAndRelease_frame hs

/-- The operand registers that no command writes (10_state.md R27 to R30). -/
def regionRegs (s : State) : Word × Word × Word × Word := (s.srcPtr, s.srcLen, s.dstPtr, s.dstCap)

theorem regionRegs_exec (i : Instr) (h : exec i s = .next t) : regionRegs t = regionRegs s := by
  cases i with
  | fenc => exact (congrArg regionRegs (fenc_frame h).1).trans rfl
  | fdec => exact (congrArg regionRegs (fdec_frame h).1).trans rfl
  | penc => exact (congrArg regionRegs (penc_frame h).1).trans rfl
  | pdec => exact (congrArg regionRegs (pdec_frame h)).trans rfl
  | psize => exact (congrArg regionRegs (psize_frame h)).trans rfl
  | acq => exact (congrArg regionRegs (acq_frame h)).trans rfl
  | rel => exact (congrArg regionRegs (rel_frame h)).trans rfl

theorem serve_keeps_powerOn {i : Input} (h : serve i s = .next t) : t.powerOn = s.powerOn := by
  rcases serve_next h with ⟨off, v, -, -, ho⟩ | ⟨off, -, -, rfl⟩ | ⟨a, b, -, -, rfl⟩ | ⟨a, -, -, rfl⟩ | ⟨-, rfl⟩
  · obtain ⟨-, hpow, -⟩ := surroundings_eq_iff.1 (surroundings_writeOffset ho)
    exact hpow
  all_goals rfl

theorem step_keeps_powerOn (h : step s = .next t) : t.powerOn = s.powerOn := by
  obtain ⟨-, ⟨f, l, -, -, rfl⟩ | ⟨-, -, rfl⟩ | ⟨i, l, -, -, hserve⟩⟩ := step_next h
  · rfl
  · rfl
  · exact serve_keeps_powerOn (s := s.setInputs l) hserve

end

/-! ### Two runs that agree on the operands (10_state.md R48, 42_channel_output.md R164) -/

section
variable {α : Type} {outs : State → α} {s s' : State}

/-- A command run from `s` and from `s'` ends in `t` and `t'` with the same result, the same MEM if it started with the
same, the same OUT_LEN where the result defines one, and the same `outs` where the result is OK. -/
structure EndsAlike (outs : State → α) (s s' t t' : State) : Prop where
  result : t'.result = t.result
  mem : s'.mem = s.mem → t'.mem = t.mem
  outLen : t.result = .ok ∨ t.result = .bufferTooSmall → t'.outLen = t.outLen
  outs : t.result = .ok → outs t' = outs t

/-- The two answers are next states that end alike. -/
def AnswersAlike (outs : State → α) (s s' : State) (o o' : Answer) : Prop :=
  ∃ t t', o = .next t ∧ o' = .next t' ∧ EndsAlike outs s s' t t'

theorem AnswersAlike.of_next {o o' : Answer} {t : State} (h : AnswersAlike outs s s' o o') (ho : o = .next t) :
    ∃ t', o' = .next t' ∧ EndsAlike outs s s' t t' := by
  obtain ⟨u, t', hu, ho', hends⟩ := h
  obtain rfl : u = t := by simpa [hu] using ho
  exact ⟨t', ho', hends⟩

theorem answersAlike_raise {r : Result} (hr : r ∉ [.ok, .bufferTooSmall]) :
    AnswersAlike outs s s' (raise r s) (raise r s') := by
  obtain ⟨hok, hsmall, -⟩ : r ≠ .ok ∧ r ≠ .bufferTooSmall ∧ True := by simpa using hr
  refine ⟨_, _, rfl, rfl, rfl, id, ?_, fun h => absurd h hok⟩
  rintro (h | h)
  · exact absurd h hok
  · exact absurd h hsmall

theorem answersAlike_finish {u u' : State} (hmem : s'.mem = s.mem → u'.mem = u.mem) (hlen : u'.outLen = u.outLen)
    (houts : outs (u'.setResult .ok) = outs (u.setResult .ok)) : AnswersAlike outs s s' (finish u) (finish u') :=
  ⟨_, _, rfl, rfl, rfl, hmem, fun _ => hlen, fun _ => houts⟩

theorem answersAlike_ite {c c' : Prop} [Decidable c] [Decidable c'] {a b a' b' : Answer} (hc : c' ↔ c)
    (ha : AnswersAlike outs s s' a a') (hb : AnswersAlike outs s s' b b') :
    AnswersAlike outs s s' (if c then a else b) (if c' then a' else b') := by
  by_cases h : c
  · rwa [if_pos h, if_pos (hc.2 h)]
  · rwa [if_neg h, if_neg (mt hc.1 h)]

theorem answersAlike_withPrologue {body : State → Answer} (hf : s'.fault = s.fault)
    (hbody : AnswersAlike outs s s' (body s) (body s')) :
    AnswersAlike outs s s' (withPrologue body s) (withPrologue body s') :=
  answersAlike_ite (by rw [hf]) (answersAlike_raise (by decide)) hbody

/-- Delivering one output from two states with the same buffer ends alike, when what is done after the store keeps MEM
and gives the same `outs`. -/
theorem answersAlike_deliver {out : List Byte} {more : State → State} (hp : s'.dstPtr = s.dstPtr)
    (hc : s'.dstCap = s.dstCap) (hkeep : ∀ u, (more u).mem = u.mem)
    (houts : ∀ (u u' : State) (w : Word),
      outs (((more u').setOutLen w).setResult .ok) = outs (((more u).setOutLen w).setResult .ok)) :
    AnswersAlike outs s s' (deliver out more s) (deliver out more s') := by
  refine answersAlike_ite (by rw [hc]) ?_ (answersAlike_finish (fun hm => ?_) rfl (houts ..))
  · exact ⟨_, _, rfl, rfl, rfl, id, fun _ => rfl, nofun⟩
  · simp [hkeep, memWrite, hm, hp]

/-! #### The operands -/

theorem srcBytes_congr (hm : s'.mem = s.mem) (hpow : s'.powerOn = s.powerOn) (hp : s'.srcPtr = s.srcPtr)
    (hl : s'.srcLen = s.srcLen) : srcBytes s' = srcBytes s := by
  rw [srcBytes, srcBytes, hp, hl, memRead_congr_mem hm hpow]

theorem pktPayload_congr (hm : s'.mem = s.mem) (hpow : s'.powerOn = s.powerOn) (hp : s'.pktPayPtr = s.pktPayPtr)
    (hl : s'.pktPayLen = s.pktPayLen) : pktPayload s' = pktPayload s := by
  rw [pktPayload, pktPayload, hp, hl, memRead_congr_mem hm hpow]

/-- FR_ADDR and FR_CTRL, which FDEC writes on OK (40_frame_codec.md R103). -/
def frameFields (s : State) : Byte × Byte := (s.frAddr, s.frCtrl)

/-- The PKT_ registers, which PDEC writes on OK (41_packet_protocol.md R135). -/
def packetFields (s : State) : Word × Word × Word × Word × Word × Word × Word :=
  (s.pktType, s.pktChannel, s.pktService, s.pktMethod, s.pktStatus, s.pktPayPtr, s.pktPayLen)

/-! #### The commands -/

theorem fenc_answersAlike (hf : s'.fault = s.fault) (hcfg : s'.cfg = s.cfg) (hsrc : srcBytes s' = srcBytes s)
    (hsp : s'.srcPtr = s.srcPtr) (hsl : s'.srcLen = s.srcLen) (hdp : s'.dstPtr = s.dstPtr)
    (hdc : s'.dstCap = s.dstCap) (ha : s'.frAddr = s.frAddr) (hc : s'.frCtrl = s.frCtrl) :
    AnswersAlike (fun _ => ()) s s' (exec .fenc s) (exec .fenc s') := by
  refine answersAlike_withPrologue (body := fencBody) hf ?_
  refine answersAlike_ite (by rw [hcfg, hsp, hsl, hdp, hdc]) (answersAlike_raise (by decide)) ?_
  rw [ha, hc, hsrc]
  exact answersAlike_deliver hdp hdc (fun _ => rfl) (fun _ _ _ => rfl)

theorem fdec_answersAlike (hf : s'.fault = s.fault) (hcfg : s'.cfg = s.cfg) (hsrc : srcBytes s' = srcBytes s)
    (hsp : s'.srcPtr = s.srcPtr) (hsl : s'.srcLen = s.srcLen) (hdp : s'.dstPtr = s.dstPtr)
    (hdc : s'.dstCap = s.dstCap) :
    AnswersAlike frameFields s s' (exec .fdec s) (exec .fdec s') := by
  refine answersAlike_withPrologue (body := fdecBody) hf ?_
  refine answersAlike_ite (by rw [hcfg, hsp, hsl, hdp, hdc]) (answersAlike_raise (by decide)) ?_
  rw [hsrc]
  cases frameDecode (srcBytes s) with
  | error e => exact answersAlike_raise (by decide)
  | ok d => exact answersAlike_deliver hdp hdc (fun _ => rfl) (fun _ _ _ => rfl)

theorem penc_answersAlike (hf : s'.fault = s.fault) (hcfg : s'.cfg = s.cfg) (henv : pktEnvelope s' = pktEnvelope s)
    (hpp : s'.pktPayPtr = s.pktPayPtr) (hpl : s'.pktPayLen = s.pktPayLen) (hdp : s'.dstPtr = s.dstPtr)
    (hdc : s'.dstCap = s.dstCap) :
    AnswersAlike (fun _ => ()) s s' (exec .penc s) (exec .penc s') := by
  refine answersAlike_withPrologue (body := pencBody) hf ?_
  refine answersAlike_ite (by rw [hcfg, hpp, hpl, hdp, hdc]) (answersAlike_raise (by decide)) ?_
  rw [henv]
  exact answersAlike_deliver hdp hdc (fun _ => rfl) (fun _ _ _ => rfl)

theorem pdec_answersAlike (hf : s'.fault = s.fault) (hcfg : s'.cfg = s.cfg) (hsrc : srcBytes s' = srcBytes s)
    (hsp : s'.srcPtr = s.srcPtr) (hsl : s'.srcLen = s.srcLen) :
    AnswersAlike packetFields s s' (exec .pdec s) (exec .pdec s') := by
  refine answersAlike_withPrologue (body := pdecBody) hf ?_
  refine answersAlike_ite (by rw [hcfg, hsp, hsl]) (answersAlike_raise (by decide)) ?_
  rw [hsrc, hsl]
  cases envelopeDecode (srcBytes s) with
  | error e => exact answersAlike_raise (by decide)
  | ok x => exact answersAlike_finish id rfl (by simp [packetFields, State.setEnvelope, hsp])

theorem psize_answersAlike (hf : s'.fault = s.fault) (hpl : s'.pktPayLen = s.pktPayLen) :
    AnswersAlike State.outAux s s' (exec .psize s) (exec .psize s') := by
  refine answersAlike_withPrologue (body := psizeBody) hf ?_
  unfold psizeBody
  rw [hpl]
  exact answersAlike_finish id rfl rfl

end

/-! ### The STATUS word (10_state.md R26) -/

theorem statusWord_result (s : State) : (statusWord s).extractLsb' 0 4 = resultCode s.result := by
  unfold statusWord
  exact BitVec.extractLsb'_append_eq_right

theorem statusWord_reserved_low (s : State) : (statusWord s).extractLsb' 4 4 = 0#4 := by
  rw [statusWord, BitVec.extractLsb'_append_eq_of_le (by decide)]
  exact BitVec.extractLsb'_append_eq_right

theorem statusWord_reserved_high (s : State) : (statusWord s).extractLsb' 10 22 = 0#22 := by
  rw [statusWord, BitVec.extractLsb'_append_eq_of_le (by decide), BitVec.extractLsb'_append_eq_of_le (by decide),
    BitVec.extractLsb'_append_eq_of_le (by decide)]
  exact BitVec.extractLsb'_append_eq_left

theorem flagBit_getLsbD (b : Bool) : (flagBit b).getLsbD 0 = b := by cases b <;> rfl

theorem statusWord_acquired (s : State) : (statusWord s).getLsbD 8 = s.acquired := by
  simp only [statusWord, BitVec.getLsbD_append, Nat.reduceSub, Nat.reduceLT, if_true, if_false]
  exact flagBit_getLsbD s.acquired

theorem statusWord_fault (s : State) : (statusWord s).getLsbD 9 = s.fault := by
  simp only [statusWord, BitVec.getLsbD_append, Nat.reduceSub, Nat.reduceLT, if_true, if_false]
  exact flagBit_getLsbD s.fault

/-! ### The register map (10_state.md R22 to R41) -/

theorem readOffset_regOffset (s : State) (r : Reg) : readOffset s (regOffset r) = readReg s r := by
  rw [readOffset, regAt_regOffset]

theorem regAt_unmapped {off : Nat} (h : 0x44 ≤ off) : regAt off = none := by
  cases hr : regAt off with
  | none => rfl
  | some r =>
    obtain rfl := regAt_eq_some hr
    exact absurd h (by cases r <;> decide)

theorem readOffset_unmapped (s : State) {off : Nat} (h : 0x44 ≤ off) : readOffset s off = 0#32 := by
  rw [readOffset, regAt_unmapped h]

theorem zext32_toNat (b : Byte) : (zext32 b).toNat = b.toNat := BitVec.toNat_setWidth_of_le (by decide)

theorem zext32_low (v : Word) : zext32 (v.setWidth 8) = v &&& 0xFF#32 := by
  refine BitVec.eq_of_toNat_eq ?_
  rw [zext32_toNat, BitVec.toNat_setWidth, BitVec.toNat_and]
  exact (Nat.and_two_pow_sub_one_eq_mod v.toNat 8).symm

/-- A written register reads as the value, FR_ADDR and FR_CTRL as its low byte (10_state.md R33, R34). -/
theorem readReg_writeReg_same (s : State) (v : Word) {r : Reg} (hr : r ∉ [Reg.cmd, .status, .outLen, .outAux]) :
    readReg (writeReg s v r) r = if r = .frAddr ∨ r = .frCtrl then v &&& 0xFF#32 else v := by
  cases r
  case cmd | status | outLen | outAux => simp at hr
  case frAddr | frCtrl => exact zext32_low v
  all_goals rfl

theorem readReg_writeReg_other (s : State) (v : Word) {r r' : Reg} (h : r' ≠ r) :
    readReg (writeReg s v r) r' = readReg s r' := by
  cases r <;> cases r' <;> first | exact absurd rfl h | rfl

theorem writeReg_eq (s : State) (v : Word) (r : Reg) :
    writeReg s v r = { s with
      srcPtr := (writeReg s v r).srcPtr, srcLen := (writeReg s v r).srcLen, dstPtr := (writeReg s v r).dstPtr,
      dstCap := (writeReg s v r).dstCap, frAddr := (writeReg s v r).frAddr, frCtrl := (writeReg s v r).frCtrl,
      pktType := (writeReg s v r).pktType, pktChannel := (writeReg s v r).pktChannel,
      pktService := (writeReg s v r).pktService, pktMethod := (writeReg s v r).pktMethod,
      pktStatus := (writeReg s v r).pktStatus, pktPayPtr := (writeReg s v r).pktPayPtr,
      pktPayLen := (writeReg s v r).pktPayLen } := by
  cases r <;> rfl

theorem readReg_resetWith (c : Config) (p : Nat) (r : Reg) : readReg (State.resetWith c p) r = 0#32 := by
  cases r
  case status =>
    show 0#22 ++ flagBit false ++ flagBit false ++ 0#4 ++ resultCode .ok = 0#32
    decide
  all_goals rfl

theorem readOffset_resetWith (c : Config) (p off : Nat) : readOffset (State.resetWith c p) off = 0#32 := by
  unfold readOffset
  split
  · exact readReg_resetWith c p _
  · rfl

/-! ### One access of the host -/

section
variable {s t : State} {l : List Input}

theorem step_of_next {i : Input} (h : NextInput s i l) : step s = serve i (s.setInputs l) := by
  obtain ⟨hcfg, hwait, hin⟩ := h
  exact step_idle hcfg hwait hin

theorem step_regWrite {off : Nat} {v : Word} (h : NextInput s (.regWrite 32 off v) l)
    (hoff : regAccessWf 32 off = true) : step s = writeOffset off v (s.setInputs l) :=
  (step_of_next h).trans (if_pos hoff)

theorem step_writeCmd {w : Word} (h : NextInput s (.regWrite 32 0x00 w) l) : step s = writeCmd w (s.setInputs l) :=
  step_regWrite h rfl

theorem writeOffset_regOffset {r : Reg} (hr : r ≠ .cmd) (v : Word) (s : State) :
    writeOffset (regOffset r) v s = .next (writeReg s v r) := by
  cases r
  case cmd => exact absurd rfl hr
  all_goals rfl

theorem step_writeReg {r : Reg} {v : Word} (h : NextInput s (.regWrite 32 (regOffset r) v) l) (hr : r ≠ .cmd) :
    step s = .next (writeReg (s.setInputs l) v r) :=
  (step_regWrite h (regAccessWf_regOffset r)).trans (writeOffset_regOffset hr v _)

theorem exec_faulted (i : Instr) (hf : s.fault = true) : exec i s = .next (s.setResult .faulted) := by
  cases i <;> exact withPrologue_faulted hf

/-- A write of a legal word to CMD is the command, whose own prologue repeats the FAULT check (60_exceptions.md R182). -/
theorem writeCmd_of_decode {w : Word} {i : Instr} (hd : decode w = .ok i) : writeCmd w s = exec i s := by
  by_cases hf : s.fault = true
  · rw [exec_faulted i hf, writeCmd, if_pos hf, raise]
  · rw [writeCmd, if_neg hf, hd]

theorem step_no_input (hc : s.cfg.wf = true) (hw : s.waiting = none) (hi : s.inputs = []) : step s = .next s := by
  simp [step, stepBus, stepIdle, hc, hw, hi]

theorem regAccessWf_eq_false {width off : Nat} (h : width ≠ 32 ∨ off % 4 ≠ 0 ∨ 0x100 ≤ off) :
    regAccessWf width off = false := by
  simp only [regAccessWf, Bool.and_eq_false_iff, decide_eq_false_iff_not]
  omega

theorem memAccessWf_eq_false {c : Config} {a : Nat} (h : c.memSize ≤ a) : memAccessWf c a = false := by
  simpa [memAccessWf] using h

theorem regAccessWf_of_aligned {off : Nat} (h : off % 4 = 0) (hlt : off < 0x100) : regAccessWf 32 off = true := by
  simp [regAccessWf, h, hlt]

end

/-! ### What can change the two flags (10_state.md R42, R43) -/

section
variable {s t : State}

/-- ACQUIRED and FAULT. -/
def flags (s : State) : Bool × Bool := (s.acquired, s.fault)

theorem flags_eq_iff : flags t = flags s ↔ t.acquired = s.acquired ∧ t.fault = s.fault := by simp [flags]

theorem flags_writeReg (s : State) (v : Word) (r : Reg) : flags (writeReg s v r) = flags s := by cases r <;> rfl

/-- A step that changes a flag serves a write to CMD or a reset. -/
theorem step_flags (h : step s = .next t) :
    (∃ w l, s.inputs = .regWrite 32 0x00 w :: l ∧ writeCmd w (s.setInputs l) = .next t) ∨
    (∃ l, ResetNext s l ∧ t = applyReset (s.setInputs l)) ∨ flags t = flags s := by
  obtain ⟨-, ⟨f, l, hwait, hl, rfl⟩ | ⟨-, -, rfl⟩ | ⟨i, l, -, hin, hserve⟩⟩ := step_next h
  · obtain ⟨before, after, hin, rfl, -⟩ := takeReset_some hl
    exact .inr (.inl ⟨_, ⟨before, after, hin, rfl, by simp [hwait]⟩, rfl⟩)
  · exact .inr (.inr rfl)
  · rcases serve_next hserve with ⟨off, v, rfl, -, ho⟩ | ⟨off, -, -, rfl⟩ | ⟨a, b, -, -, rfl⟩ | ⟨a, -, -, rfl⟩ |
      ⟨rfl, rfl⟩
    · rcases writeOffset_next ho with ⟨-, rfl⟩ | ⟨rfl, hc⟩ | ⟨r, -, -, rfl⟩
      · exact .inr (.inr rfl)
      · exact .inl ⟨v, l, hin, hc⟩
      · exact .inr (.inr (flags_writeReg _ v r))
    · exact .inr (.inr rfl)
    · exact .inr (.inr rfl)
    · exact .inr (.inr rfl)
    · exact .inr (.inl ⟨l, ⟨[], l, hin, rfl, fun _ => rfl⟩, rfl⟩)

/-- No command but ACQ and REL touches a flag. -/
theorem flags_exec {i : Instr} (h : exec i s = .next t) (hacq : i ≠ .acq) (hrel : i ≠ .rel) : flags t = flags s := by
  cases i with
  | acq => exact absurd rfl hacq
  | rel => exact absurd rfl hrel
  | fenc => exact (congrArg flags (fenc_frame h).1).trans rfl
  | fdec => exact (congrArg flags (fdec_frame h).1).trans rfl
  | penc => exact (congrArg flags (penc_frame h).1).trans rfl
  | pdec => exact (congrArg flags (pdec_frame h)).trans rfl
  | psize => exact (congrArg flags (psize_frame h)).trans rfl

theorem acq_next (hf : s.fault = false) (h : exec .acq s = .next t) :
    (s.acquired = true ∧ t = (s.setFault true).setResult .contractViolation) ∨
    (s.acquired = false ∧ t.fault = false ∧ t.acquired = true ∧ t.result = .ok) := by
  rw [exec, execAcq, withPrologue_ready hf] at h
  rcases acqBody_next h with ⟨ha, rfl⟩ | ⟨ha, rfl⟩
  · exact .inl ⟨ha, rfl⟩
  · exact .inr ⟨ha, hf, rfl, rfl⟩

/-- What the sink port does to the flags, by whether the sink answers. -/
theorem sinkWriteAndRelease_flags {f : List Byte} (h : sinkWriteAndRelease f s = .next t) :
    t.fault = s.fault ∧
      ((sinkReply s = .noAnswer ∧ t.acquired = s.acquired) ∨
       (sinkReply s ≠ .noAnswer ∧ t.acquired = false ∧ (t.result = .ok ∨ t.result = .sinkError))) := by
  rcases sinkWriteAndRelease_next h with ⟨hnone, rfl⟩ | ⟨a, hsome, rfl⟩
  · exact ⟨rfl, .inl ⟨sinkAnswer_eq_none.1 hnone, rfl⟩⟩
  · have hanswer : sinkReply s ≠ .noAnswer := fun hr => by simp [sinkAnswer_eq_none.2 hr] at hsome
    exact ⟨by simp, .inr ⟨hanswer, by simp, by cases a <;> simp⟩⟩

/-- REL of an unfaulted block: out of contract, waiting for a silent sink, or released with an answer. -/
theorem rel_next (hf : s.fault = false) (h : exec .rel s = .next t) :
    (ContractBroken .rel s ∧ t = (s.setFault true).setResult .contractViolation) ∨
    (¬ ContractBroken .rel s ∧ t.fault = false ∧
      ((SinkSilent .rel s ∧ t.acquired = s.acquired) ∨
       (¬ SinkSilent .rel s ∧ t.acquired = false ∧ (t.result = .ok ∨ t.result = .sinkError)))) := by
  rw [exec, execRel, withPrologue_ready hf] at h
  rcases relBody_next h with ⟨hbroken, rfl⟩ | ⟨ha, hn, hs⟩
  · exact .inl ⟨.inr ⟨rfl, hbroken⟩, rfl⟩
  · have hkept : ¬ ContractBroken .rel s := by simp [ContractBroken, ha, hn]
    obtain ⟨hfault, ⟨hnone, hacq⟩ | ⟨hanswer, hreleased⟩⟩ := sinkWriteAndRelease_flags hs
    · exact .inr ⟨hkept, hfault.trans hf, .inl ⟨⟨rfl, hnone⟩, hacq⟩⟩
    · exact .inr ⟨hkept, hfault.trans hf, .inr ⟨fun hsilent => hanswer hsilent.2, hreleased⟩⟩

/-- A command of an unfaulted block that breaks the contract sets FAULT; every other leaves it 0. -/
theorem exec_fault {i : Instr} (hf : s.fault = false) (h : exec i s = .next t) :
    (ContractBroken i s ∧ t = (s.setFault true).setResult .contractViolation) ∨
    (¬ ContractBroken i s ∧ t.fault = false) := by
  cases i with
  | acq =>
    rcases acq_next hf h with ⟨ha, rfl⟩ | ⟨ha, hf', -⟩
    · exact .inl ⟨.inl ⟨rfl, ha⟩, rfl⟩
    · exact .inr ⟨by simp [ContractBroken, ha], hf'⟩
  | rel =>
    rcases rel_next hf h with hviolation | ⟨hkept, hf', -⟩
    · exact .inl hviolation
    · exact .inr ⟨hkept, hf'⟩
  | _ => exact .inr ⟨by simp [ContractBroken], (flags_eq_iff.1 (flags_exec h nofun nofun)).2.trans hf⟩

/-- Of an unfaulted block, ACQUIRED is changed by an ACQ that ends in OK or by a REL that the sink has answered. -/
theorem exec_acquired {i : Instr} (hf : s.fault = false) (h : exec i s = .next t) :
    t.acquired = s.acquired ∨ (i = .acq ∧ t.acquired = true ∧ t.result = .ok) ∨
    (i = .rel ∧ t.acquired = false ∧ (t.result = .ok ∨ t.result = .sinkError)) := by
  cases i with
  | acq =>
    rcases acq_next hf h with ⟨-, rfl⟩ | ⟨-, -, hacq, hok⟩
    · exact .inl rfl
    · exact .inr (.inl ⟨rfl, hacq, hok⟩)
  | rel =>
    rcases rel_next hf h with ⟨-, rfl⟩ | ⟨-, -, ⟨-, hsame⟩ | ⟨-, hreleased⟩⟩
    · exact .inl rfl
    · exact .inl hsame
    · exact .inr (.inr ⟨rfl, hreleased⟩)
  | _ => exact .inl (flags_eq_iff.1 (flags_exec h nofun nofun)).1

/-- A write to CMD of an unfaulted block sets FAULT exactly where its command breaks the contract. -/
theorem writeCmd_fault_iff {w : Word} (h : writeCmd w s = .next t) (hf : s.fault = false) :
    t.fault = true ↔ t.result = .contractViolation ∧ ∃ i, decode w = .ok i ∧ ContractBroken i s := by
  rcases writeCmd_next h with ⟨hf', -⟩ | ⟨-, -, rfl⟩ | ⟨-, i, hd, he⟩
  · rw [hf] at hf'; cases hf'
  · simp [hf]
  · rcases exec_fault hf he with ⟨hbroken, rfl⟩ | ⟨hkept, hf'⟩
    · exact ⟨fun _ => ⟨rfl, i, hd, hbroken⟩, fun _ => rfl⟩
    · refine ⟨fun hset => absurd hset (by simp [hf']), ?_⟩
      rintro ⟨-, j, hj, hbroken⟩
      obtain rfl : j = i := Except.ok.inj (hj.symm.trans hd)
      exact absurd hbroken hkept

/-- While FAULT = 1 a write to CMD changes RESULT alone (60_exceptions.md R182). -/
theorem writeCmd_faulted (w : Word) (hf : s.fault = true) : writeCmd w s = .next (s.setResult .faulted) := by
  rw [writeCmd, if_pos hf, raise]

end

/-! ### Command words (30_encoding.md R70, R71) -/

theorem word_eq_fields (w : Word) : w = rsvdField w ++ opcField w :=
  (BitVec.extractLsb'_append_extractLsb' (w := 28) (len := 4) (x := w)).symm

theorem eq_encode_of_fields {w : Word} {i : Instr} (hr : rsvdField w = 0#28)
    (ho : (opcField w).toNat = (opcField (encode i)).toNat) : w = encode i := by
  rw [word_eq_fields w, hr, BitVec.eq_of_toNat_eq ho]
  cases i <;> rfl

/-- A word that decodes is the command word of what it decodes to. -/
theorem eq_encode_of_decode {w : Word} {i : Instr} (h : decode w = .ok i) : w = encode i := by
  unfold decode at h
  split at h
  · cases h
  · next hr =>
    split at h
    case h_1 | h_9 => cases h
    all_goals
      next ho =>
        obtain rfl := Except.ok.inj h
        exact eq_encode_of_fields (not_not.1 hr) ho

/-! ### The obligations of 10_state.md -/

/-- Settles O35: fenc_frame and penc_frame are one shape (regions checked, then an output delivered); FDEC writes its two
frame registers and its bytes only where the source decodes and the payload fits. -/
theorem storingCommandsChangeOnlyTheirOutputs : Obligations.StoringCommandsChangeOnlyTheirOutputs := by
  intro s t
  refine ⟨fenc_frame, penc_frame, fun h => ?_⟩
  obtain ⟨hframe, hfields⟩ := fdec_frame h
  exact ⟨hframe, hfields, fun d hdec => fdec_readByte hdec h, fun hbad => fdec_readByte_of_corrupt hbad h⟩

/-- Settles O36: the frame equation of each command keeps MEM and the power-on, and these are what a read depends on. -/
theorem otherCommandsStoreNothing : Obligations.OtherCommandsStoreNothing := by
  intro s t
  refine ⟨fun h => ⟨pdec_frame h, ?_⟩, fun h => ⟨psize_frame h, ?_⟩, fun h => ⟨acq_frame h, ?_⟩,
    fun h => ⟨rel_frame h, ?_⟩⟩
  · rw [pdec_frame h]; exact fun _ => rfl
  · rw [psize_frame h]; exact fun _ => rfl
  · rw [acq_frame h]; exact fun _ => rfl
  · rw [rel_frame h]; exact fun _ => rfl

/-- Settles O44: the four registers are kept by every command's frame equation; the configuration and the power-on are
kept by reset and by whatever serves an input. -/
theorem pointersAndConfigurationAreLeftAlone : Obligations.PointersAndConfigurationAreLeftAlone := by
  refine ⟨fun i s t h => ?_, fun s t h => ⟨(step_keeps_cfg_inputs_subset h).1, step_keeps_powerOn h⟩⟩
  simpa [regionRegs] using regionRegs_exec i h

/-- Settles O38: both commands are built from a range check, a pure function of the source and deliver, and each of these
answers two agreeing states alike. -/
theorem frameCommandsReadOnlyTheirOperands : Obligations.FrameCommandsReadOnlyTheirOperands := by
  intro i s s' t hi hcfg hpow hmem hf hsp hsl hdp hdc hfields h
  have hsrc : srcBytes s' = srcBytes s := srcBytes_congr hmem hpow hsp hsl
  rcases hi with rfl | rfl
  · obtain ⟨ha, hc⟩ := hfields rfl
    obtain ⟨t', h', hends⟩ := (fenc_answersAlike hf hcfg hsrc hsp hsl hdp hdc ha hc).of_next h
    exact ⟨t', h', hends.result, hends.mem hmem, hends.outLen, nofun⟩
  · obtain ⟨t', h', hends⟩ := (fdec_answersAlike hf hcfg hsrc hsp hsl hdp hdc).of_next h
    exact ⟨t', h', hends.result, hends.mem hmem, hends.outLen, fun _ hok => Prod.ext_iff.1 (hends.outs hok)⟩

/-- Settles O39: as O38, with the envelope in place of the source bytes for PENC, and PKT_PAY_LEN alone for PSIZE. -/
theorem packetCommandsReadOnlyTheirOperands : Obligations.PacketCommandsReadOnlyTheirOperands := by
  intro i s s' t hi hf hmemory hpenc hlen hsource h
  rcases hi with rfl | rfl | rfl
  · obtain ⟨hcfg, hpow, hmem⟩ := hmemory nofun
    obtain ⟨htype, hchannel, hservice, hmethod, hstatus, hpp, hdp, hdc⟩ := hpenc rfl
    have hpl := hlen nofun
    have henv : pktEnvelope s' = pktEnvelope s := by
      simp only [pktEnvelope, htype, hchannel, hservice, hmethod, hstatus, pktPayload_congr hmem hpow hpp hpl]
    obtain ⟨t', h', hends⟩ := (penc_answersAlike hf hcfg henv hpp hpl hdp hdc).of_next h
    exact ⟨t', h', hends.result, fun _ => hends.mem hmem, hends.outLen, nofun, nofun⟩
  · obtain ⟨hcfg, hpow, hmem⟩ := hmemory nofun
    obtain ⟨hsp, hsl⟩ := hsource rfl
    have hsrc : srcBytes s' = srcBytes s := srcBytes_congr hmem hpow hsp hsl
    obtain ⟨t', h', hends⟩ := (pdec_answersAlike hf hcfg hsrc hsp hsl).of_next h
    exact ⟨t', h', hends.result, nofun, hends.outLen, nofun,
      fun _ hok => by simpa [packetFields] using hends.outs hok⟩
  · obtain ⟨t', h', hends⟩ := (psize_answersAlike hf (hlen nofun)).of_next h
    exact ⟨t', h', hends.result, nofun, hends.outLen, fun _ => hends.outs, nofun⟩

/-- Settles O42: exec_fault for the command, step_flags for the step; a faulted block's CMD write keeps FAULT. -/
theorem faultIsStickyUntilReset : Obligations.FaultIsStickyUntilReset := by
  refine ⟨fun _ _ => rfl, statusWord_fault, fun _ _ _ => writeCmd_fault_iff, fun s t h hf hset => ?_,
    fun s t h hf hclear => ?_⟩
  · rcases step_flags h with ⟨w, l, hin, hc⟩ | ⟨l, -, rfl⟩ | hsame
    · exact ⟨w, l, hin, hc⟩
    · cases hset
    · rw [(flags_eq_iff.1 hsame).2, hf] at hset; cases hset
  · rcases step_flags h with ⟨w, l, -, hc⟩ | ⟨l, hreset, rfl⟩ | hsame
    · obtain rfl := Host.Outcome.next.inj ((writeCmd_faulted w (s := s.setInputs l) hf).symm.trans hc)
      exact absurd hf (Bool.eq_false_iff.1 hclear)
    · exact ⟨l, hreset, rfl⟩
    · rw [(flags_eq_iff.1 hsame).2, hf] at hclear; cases hclear

/-- Settles O43: acq_next and rel_next for the two commands, step_flags and exec_acquired for the step. -/
theorem acquiredChangesOnlyByAcqRelReset : Obligations.AcquiredChangesOnlyByAcqRelReset := by
  refine ⟨fun _ _ => rfl, statusWord_acquired, fun s t h hok => ?_, fun s t hf hkept hanswer h => ?_,
    fun s t h hne => ?_⟩
  · rcases withPrologue_next (body := acqBody) h with ⟨-, rfl⟩ | ⟨-, hb⟩
    · cases hok
    · rcases acqBody_next hb with ⟨-, rfl⟩ | ⟨-, rfl⟩
      · cases hok
      · rfl
  · rcases rel_next hf h with ⟨hbroken, -⟩ | ⟨-, -, ⟨hsilent, -⟩ | ⟨-, hreleased, -⟩⟩
    · exact absurd hbroken hkept
    · exact absurd hsilent hanswer
    · exact hreleased
  · rcases step_flags h with ⟨w, l, hin, hc⟩ | ⟨l, hreset, ht⟩ | hsame
    · rcases writeCmd_next hc with ⟨-, rfl⟩ | ⟨-, -, rfl⟩ | ⟨hf, i, hd, he⟩
      · exact absurd rfl hne
      · exact absurd rfl hne
      · obtain rfl := eq_encode_of_decode hd
        rcases exec_acquired hf he with hsame | ⟨rfl, hset⟩ | ⟨rfl, hreleased⟩
        · exact absurd hsame hne
        · exact .inl ⟨l, hin, he, hset⟩
        · exact .inr (.inl ⟨l, hin, he, hreleased⟩)
    · exact .inr (.inr ⟨l, hreset, ht⟩)
    · exact absurd (flags_eq_iff.1 hsame).1 hne

/-- Settles O53: the map by cases on the register; a write by step_writeReg, what reads back by readReg_writeReg_same and
readReg_writeReg_other. -/
theorem registerWriteIsReadBack : Obligations.RegisterWriteIsReadBack := by
  refine ⟨by decide, readOffset_regOffset, fun s => ?_, fun s r v l hr h => ?_⟩
  · exact ⟨rfl, rfl, rfl, rfl, rfl, rfl, rfl, rfl, zext32_toNat _, zext32_toNat _, rfl, rfl, rfl, rfl, rfl, rfl, rfl⟩
  · have hcmd : r ≠ .cmd := fun hc => hr (by simp [hc])
    refine ⟨_, step_writeReg h hcmd, ?_, fun r' hne => ?_, writeReg_eq (s.setInputs l) v r⟩
    · rw [readOffset_regOffset, readReg_writeReg_same _ v hr]
    · rw [readReg_writeReg_other _ v hne, readReg_setInputs]

/-- Settles O5: the write is served by writeCmd, which is exec of the decoded command. -/
theorem stepRunsTheDecodedCommand : Obligations.StepRunsTheDecodedCommand :=
  fun _ _ _ _ h hd => (step_writeCmd h).trans (writeCmd_of_decode hd)

/-- Settles O51: regAt names no register from 0x44 on, so writeOffset answers the state it was given. -/
theorem unmappedOffsetsReadZeroIgnoreWrites : Obligations.UnmappedOffsetsReadZeroIgnoreWrites := by
  refine ⟨fun s off => readOffset_unmapped s, fun s off v l h hlow hhigh halign => ?_⟩
  rw [step_regWrite h (regAccessWf_of_aligned halign (by omega)), writeOffset, regAt_unmapped hlow]
  rfl

/-- Settles O52: writeReg keeps the state for the three read-only registers; the reserved fields are the constant parts of
the STATUS word and of zext32. -/
theorem readOnlyAndReservedBits : Obligations.ReadOnlyAndReservedBits := by
  refine ⟨fun s r v l hr h => ?_, fun _ => rfl, fun s => ⟨?_, ?_, statusWord_reserved_low s, statusWord_reserved_high s⟩,
    fun s r v l hr h => ?_, fun s off l h halign hlt => ?_⟩
  · rcases hr with rfl | rfl | rfl <;> exact step_writeReg h nofun
  · exact lt_of_eq_of_lt (zext32_toNat s.frAddr) s.frAddr.isLt
  · exact lt_of_eq_of_lt (zext32_toNat s.frCtrl) s.frCtrl.isLt
  · rcases hr with rfl | rfl <;>
      exact ⟨_, step_writeReg h nofun, (zext32_toNat _).trans (BitVec.toNat_setWidth 8 v)⟩
  · rw [step_of_next h]
    exact if_pos (regAccessWf_of_aligned halign hlt)

/-- Settles O54: each field is one part of the concatenation that statusWord is. -/
theorem statusFieldsStandWhereTheyShould : Obligations.StatusFieldsStandWhereTheyShould :=
  fun s => ⟨rfl, statusWord_result s, statusWord_reserved_low s, statusWord_acquired s, statusWord_fault s,
    statusWord_reserved_high s⟩

/-- Settles O55: the access check fails, and serve then refuses by name. -/
theorem accessOutsideTheModelIsRefused : Obligations.AccessOutsideTheModelIsRefused := by
  refine ⟨fun s width off v l hbad h => ?_, fun s a b l hout h => ?_⟩
  · have hwf := regAccessWf_eq_false hbad
    rcases h with h | h <;> rw [step_of_next h] <;> simp [serve, hwf]
  · have hwf : memAccessWf s.cfg a = false := memAccessWf_eq_false hout
    rcases h with h | h <;> rw [step_of_next h] <;> simp [serve, hwf]

/-- Settles O59: every register's reset value is 0, and an idle block without an input stays as it is. -/
theorem resetStateIsIdle : Obligations.ResetStateIsIdle :=
  fun c p => ⟨readOffset_resetWith c p, rfl, rfl, rfl, rfl, fun hc => step_no_input hc rfl rfl⟩

end Sys2Proof.Machine

namespace Sys2Proof.Machine

/-! ### What a command stores (20_memory.md R55) -/

section
variable {s t : State}

/-- `t` has the MEM of `s` with an output stored at DST_PTR that fits DST_CAP and whose length is OUT_LEN. -/
def StoredOutput (s t : State) : Prop :=
  ∃ out : List Byte, out.length ≤ s.dstCap.toNat ∧ t.outLen = BitVec.ofNat 32 out.length ∧
    t.mem = (memWrite s s.dstPtr.toNat out).mem

theorem StoredOutput.readByte_outside (h : StoredOutput s t) (hp : t.powerOn = s.powerOn) {a : Nat}
    (ha : ¬ Within s.dstPtr.toNat t.outLen.toNat a) : readByte t a = readByte s a := by
  obtain ⟨out, hfit, hlen, hmem⟩ := h
  have hlt : out.length < 2 ^ 32 := lt_of_le_of_lt hfit s.dstCap.isLt
  rw [hlen, BitVec.toNat_ofNat, Nat.mod_eq_of_lt hlt] at ha
  exact (reads_after_store s.dstPtr.toNat hmem hp).2 a ha

theorem deliver_stores {out : List Byte} {more : State → State} (hmore : ∀ u, (more u).mem = u.mem)
    (hd : deliver out more s = .next t) : t.mem = s.mem ∨ (t.result = .ok ∧ StoredOutput s t) := by
  rcases deliver_next hd with ⟨-, rfl⟩ | ⟨hfit, rfl⟩
  · exact .inl rfl
  · exact .inr ⟨rfl, out, hfit, rfl, hmore _⟩

/-- A command that checks its regions and then delivers an output, as FENC and PENC do. -/
theorem stores_of_deliver {body : State → Answer} {out : List Byte}
    (hbody : body s = .next t → t = s.setResult .badRange ∨ deliver out id s = .next t)
    (h : withPrologue body s = .next t) : t.mem = s.mem ∨ (t.result = .ok ∧ StoredOutput s t) := by
  rcases withPrologue_next h with ⟨-, rfl⟩ | ⟨-, hb⟩
  · exact .inl rfl
  · rcases hbody hb with rfl | hd
    · exact .inl rfl
    · exact deliver_stores (fun _ => rfl) hd

/-- A command keeps MEM, or ends in OK with its output stored. -/
theorem exec_stores (i : Instr) (h : exec i s = .next t) : t.mem = s.mem ∨ (t.result = .ok ∧ StoredOutput s t) := by
  cases i with
  | fenc => exact stores_of_deliver (body := fencBody) (fun hb => (fencBody_next hb).imp_right And.right) h
  | fdec =>
    rcases fdec_next h with ⟨-, ht⟩ | ⟨d, -, hd⟩
    · exact .inl ((congrArg State.mem ht).trans rfl)
    · exact deliver_stores (more := fun u => u.setFrameFields d.address d.control) (fun _ => rfl) hd
  | penc => exact stores_of_deliver (body := pencBody) (fun hb => (pencBody_next hb).imp_right And.right) h
  | pdec => exact .inl ((congrArg State.mem (pdec_frame h)).trans rfl)
  | psize => exact .inl ((congrArg State.mem (psize_frame h)).trans rfl)
  | acq => exact .inl ((congrArg State.mem (acq_frame h)).trans rfl)
  | rel => exact .inl ((congrArg State.mem (rel_frame h)).trans rfl)

theorem exec_keeps_powerOn (i : Instr) (h : exec i s = .next t) : t.powerOn = s.powerOn := by
  obtain ⟨-, hpow, -⟩ := surroundings_eq_iff.1 (surroundings_exec i h)
  exact hpow

end

/-! ### The range check opens the four commands that name a region (20_memory.md R53) -/

theorem exec_of_rangeBroken {i : Instr} {s : State} (hf : s.fault = false) (hr : RangeBroken i s) :
    exec i s = raise .badRange s := by
  rcases hr with ⟨rfl | rfl | rfl, hsrc⟩ | ⟨rfl, hpay⟩ | ⟨rfl | rfl | rfl, hdst⟩
  all_goals refine (withPrologue_ready hf).trans ?_
  exacts [if_pos (.inl hsrc), if_pos (.inl hsrc), if_pos hsrc, if_pos (.inl hpay), if_pos (.inr hdst),
    if_pos (.inr hdst), if_pos (.inr hdst)]

/-! ### The host's accesses of MEM and the placed command word (20_memory.md R51, R65) -/

section
variable {s : State} {a : Nat} {l : List Input}

theorem step_memRead (h : NextInput s (.memRead a) l) (ha : a < s.cfg.memSize) :
    step s = .next ((s.setInputs l).observe (.mem a (readByte s a))) :=
  (step_of_next h).trans (if_pos (decide_eq_true ha))

theorem step_memWrite {b : Byte} (h : NextInput s (.memWrite a b) l) (ha : a < s.cfg.memSize) :
    step s = .next ((memWrite s a [b]).setInputs l) :=
  (step_of_next h).trans (if_pos (decide_eq_true ha))

/-- The writes of a `mem` line, one step each, store its bytes as one sequence. -/
theorem run_memLineInputs {v : List Byte} (hc : s.cfg.wf = true) (hw : s.waiting = none)
    (hin : s.inputs = memLineInputs a v ++ l) (hfit : a + v.length ≤ s.cfg.memSize) :
    Host.Core.run Sys2Proof.core v.length s = .next ((memWrite s a v).setInputs l) := by
  induction v generalizing s a with
  | nil => subst hin; rfl
  | cons b v ih =>
    rw [List.length_cons] at hfit
    have hstep : Sys2Proof.core.step s = .next ((memWrite s a [b]).setInputs (memLineInputs (a + 1) v ++ l)) :=
      step_memWrite ⟨hc, hw, hin⟩ (by omega)
    have hrest := ih (s := (memWrite s a [b]).setInputs (memLineInputs (a + 1) v ++ l)) (a := a + 1) hc hw rfl
      (show a + 1 + v.length ≤ s.cfg.memSize by omega)
    simp only [List.length_cons, Host.Core.run, hstep]
    exact hrest

theorem decode_of_decodeTableWord {nbits w : Nat} {i : Instr} (h : decodeTableWord nbits w = some i) :
    decode (tableWord nbits w) = .ok i := by
  unfold decodeTableWord at h
  split at h
  · cases h
  · split at h
    · next j hj => rw [hj, Option.some.inj h]
    · cases h

theorem nextInput_withFetchWord (hc : s.cfg.wf = true) (nbits w : Nat) :
    NextInput (s.withFetchWord nbits w) (.regWrite 32 0x00 (tableWord nbits w)) s.inputs :=
  ⟨hc, rfl, rfl⟩

end

/-! ### The obligations of 20_memory.md -/

/-- Settles O30: InRange is the sum's bound by definition; each of the four bodies opens with the check of its regions,
which exec_of_rangeBroken reads off. -/
theorem badRangeChangesNothingElse : Obligations.BadRangeChangesNothingElse :=
  ⟨fun _ _ _ => Iff.rfl, fun _ _ => Iff.rfl, fun _ _ hf hr => exec_of_rangeBroken hf hr⟩

/-- Settles O37: exec_stores; where MEM is kept every byte reads as before, and a stored output has OUT_LEN bytes, as its
length fits DST_CAP and so a register. -/
theorem onlyOkWritesMem : Obligations.OnlyOkWritesMem := by
  intro i s t h
  have hp := exec_keeps_powerOn i h
  rcases exec_stores i h with hmem | ⟨hok, hout⟩
  · exact ⟨fun _ => hmem, fun a _ => readByte_congr hmem hp a⟩
  · exact ⟨fun hne => absurd hok hne, fun _ ha => hout.readByte_outside hp ha⟩

/-- Settles O56: step_memRead for a read; for a `mem` line run_memLineInputs, by induction on its bytes, reduces the
run to one MemWrite. -/
theorem hostReadsAndWritesBytesOfMem : Obligations.HostReadsAndWritesBytesOfMem := by
  refine ⟨fun s a l h ha => step_memRead h ha, fun s a v l hc hw hin hfit => ?_⟩
  obtain ⟨hback, hrest⟩ := reads_after_store (s := s) (t := (memWrite s a v).setInputs l) (out := v) a rfl rfl
  exact ⟨_, run_memLineInputs hc hw hin hfit, rfl, hback, hrest⟩

/-- Settles O6: placing the word makes its CMD write the next input, and O5's step serves it. -/
theorem placedWordRunsNext : Obligations.PlacedWordRunsNext :=
  fun s nbits w i hc hd =>
    stepRunsTheDecodedCommand _ _ i s.inputs (nextInput_withFetchWord hc nbits w) (decode_of_decodeTableWord hd)

end Sys2Proof.Machine

namespace Sys2Proof.Machine

/-! ### The legal command words (30_encoding.md R70 to R72) -/

theorem decode_encode (i : Instr) : decode (encode i) = .ok i := by cases i <;> rfl

theorem commandWord_statement (i : Instr) : Laws.CommandWord.Statement i := by
  cases i
  exacts [Laws.CommandWord.fenc, Laws.CommandWord.fdec, Laws.CommandWord.penc, Laws.CommandWord.pdec,
    Laws.CommandWord.psize, Laws.CommandWord.acq, Laws.CommandWord.rel]

/-- Each opcode from 1 to 7 is some command's. -/
theorem exists_opcField_encode {n : Nat} (hlow : 1 ≤ n) (hhigh : n ≤ 7) :
    ∃ i, n = (opcField (encode i)).toNat := by
  interval_cases n
  exacts [⟨.fenc, rfl⟩, ⟨.fdec, rfl⟩, ⟨.penc, rfl⟩, ⟨.pdec, rfl⟩, ⟨.psize, rfl⟩, ⟨.acq, rfl⟩, ⟨.rel, rfl⟩]

theorem not_illegalWord_encode (i : Instr) : ¬ IllegalWord (encode i) := by
  obtain ⟨-, hrsvd, hlow, hhigh⟩ := commandWord_statement i
  rintro (hzero | hunassigned | hreserved)
  · rw [hzero] at hlow; exact absurd hlow (by decide)
  · omega
  · exact hreserved hrsvd

theorem exists_decode_of_not_illegalWord {w : Word} (h : ¬ IllegalWord w) : ∃ i, decode w = .ok i := by
  simp only [IllegalWord, not_or, not_le, not_not] at h
  obtain ⟨hzero, hassigned, hrsvd⟩ := h
  have hpos : 1 ≤ (opcField w).toNat := Nat.one_le_iff_ne_zero.2 fun h0 => hzero (BitVec.eq_of_toNat_eq h0)
  obtain ⟨i, hi⟩ := exists_opcField_encode hpos (by omega)
  exact ⟨i, by rw [eq_encode_of_fields hrsvd hi, decode_encode]⟩

theorem illegalWord_iff {w : Word} : IllegalWord w ↔ ∀ i, decode w ≠ .ok i := by
  refine ⟨fun h i hd => ?_, fun h => ?_⟩
  · obtain rfl := eq_encode_of_decode hd
    exact not_illegalWord_encode i h
  · by_contra hlegal
    obtain ⟨i, hd⟩ := exists_decode_of_not_illegalWord hlegal
    exact h i hd

theorem writeCmd_of_illegalWord {w : Word} (h : IllegalWord w) (s : State) :
    writeCmd w s = .next (s.setResult (if s.fault then .faulted else .badCommand)) := by
  cases hf : s.fault with
  | true => exact writeCmd_faulted w hf
  | false =>
    obtain ⟨t, ht⟩ := writeCmd_answers w s
    rcases writeCmd_next ht with ⟨hf', -⟩ | ⟨-, -, rfl⟩ | ⟨-, i, hd, -⟩
    · rw [hf] at hf'; cases hf'
    · exact ht
    · exact absurd hd (illegalWord_iff.1 h i)

/-! ### The bytes of a word (30_encoding.md R80) -/

theorem toNat_eq_sum_wordBytes (c : Word) :
    c.toNat = (c.extractLsb' 0 8).toNat + 256 * (c.extractLsb' 8 8).toNat + 256 ^ 2 * (c.extractLsb' 16 8).toNat +
      256 ^ 3 * (c.extractLsb' 24 8).toNat := by
  have hlt : c.toNat < 2 ^ 32 := c.isLt
  simp only [BitVec.extractLsb'_toNat, Nat.shiftRight_eq_div_pow]
  omega

/-! ### The transactions of a `mem` line (30_encoding.md R91) -/

theorem memLineInputs_getElem? (a k : Nat) (l : List Byte) :
    (memLineInputs a l)[k]? = l[k]?.map fun b => .memWrite (a + k) b := by
  induction l generalizing a k with
  | nil => rfl
  | cons b l ih =>
    cases k with
    | zero => rfl
    | succ k => simpa [memLineInputs, Nat.add_assoc, Nat.add_comm 1 k] using ih (a + 1) k

/-! ### Varint encoding (30_encoding.md R84) -/

theorem two_pow_group (k : Nat) : 2 ^ (7 * (k + 1)) = 0x80 * 2 ^ (7 * k) := by
  rw [Nat.mul_succ, pow_add, mul_comm]; rfl

/-- One more byte allowed changes nothing for a value that fits without it. -/
theorem vencLoop_succ {k v : Nat} (h : v < 2 ^ (7 * (k + 1))) : vencLoop (k + 1) v = vencLoop k v := by
  induction k generalizing v with
  | zero => exact (vencLoop_small h).trans (vencLoop_small h).symm
  | succ k ih =>
    rcases lt_or_ge v 0x80 with hv | hv
    · rw [vencLoop_small hv, vencLoop_small hv]
    · have hrest : v / 0x80 < 2 ^ (7 * (k + 1)) := Nat.div_lt_of_lt_mul (two_pow_group _ ▸ h)
      rw [vencLoop_big hv, vencLoop_big hv, ih hrest]

theorem venc_small {v : Nat} (h : v < 0x80) : venc v = [BitVec.ofNat 8 v] := vencLoop_small h

theorem venc_big {v : Nat} (h : 0x80 ≤ v) (hv : v < 2 ^ 32) :
    venc v = BitVec.ofNat 8 (v % 0x80 + 0x80) :: venc (v / 0x80) := by
  have hrest : vencLoop 4 (v / 0x80) = vencLoop 3 (v / 0x80) := vencLoop_succ (by norm_num; omega)
  rw [venc, venc, vencLoop_big h, hrest]

/-- The recursion of R84 as an induction: on a u32 below 0x80, or on one with its last group taken off. -/
theorem varint_induction {P : Nat → Prop} (small : ∀ v < 0x80, P v)
    (big : ∀ v, 0x80 ≤ v → v < 2 ^ 32 → P (v / 0x80) → P v) : ∀ v < 2 ^ 32, P v := by
  intro v hv
  induction v using Nat.strong_induction_on with
  | _ v ih =>
    rcases lt_or_ge v 0x80 with h | h
    · exact small v h
    · exact big v h hv (ih _ (by omega) (by omega))

theorem vlen_big {v : Nat} (h : 0x80 ≤ v) (hv : v < 2 ^ 32) : vlen v = vlen (v / 0x80) + 1 := by
  simp only [vlen]
  split_ifs <;> omega

theorem venc_length : ∀ v < 2 ^ 32, (venc v).length = vlen v := by
  refine varint_induction (fun v h => ?_) fun v h hv ih => ?_
  · rw [venc_small h, vlen, if_pos (show v < 2 ^ 7 from h), List.length_singleton]
  · rw [venc_big h hv, vlen_big h hv, List.length_cons, ih]

theorem vlen_bounds (v : Nat) : 1 ≤ vlen v ∧ vlen v ≤ 5 := by
  unfold vlen
  split_ifs <;> decide

theorem getLsbD_seven_iff (b : Byte) : b.getLsbD 7 = true ↔ 0x80 ≤ b.toNat := by
  rw [← BitVec.msb_eq_getLsbD_last, BitVec.msb_eq_decide]
  exact decide_eq_true_iff

theorem group_toNat {v : Nat} (h : v < 0x80) : (BitVec.ofNat 8 v).toNat = v := by
  rw [BitVec.toNat_ofNat, Nat.mod_eq_of_lt (by omega)]

theorem continued_group_toNat (v : Nat) : (BitVec.ofNat 8 (v % 0x80 + 0x80)).toNat = v % 0x80 + 0x80 := by
  rw [BitVec.toNat_ofNat, Nat.mod_eq_of_lt (by omega)]

/-- A byte of a varint says by bit 7 whether another one follows. -/
theorem venc_continuation : ∀ v < 2 ^ 32, ∀ (i : Nat) (b : Byte), (venc v)[i]? = some b →
    (b.getLsbD 7 = true ↔ i + 1 < (venc v).length) := by
  refine varint_induction (fun v h i b hb => ?_) fun v h hv ih i b hb => ?_
  · rw [venc_small h] at hb ⊢
    rw [List.getElem?_singleton, Option.ite_none_right_eq_some] at hb
    obtain ⟨rfl, hb⟩ := hb
    obtain rfl := Option.some.inj hb
    rw [getLsbD_seven_iff, group_toNat h, List.length_singleton]
    omega
  · rw [venc_big h hv] at hb ⊢
    cases i with
    | zero =>
      obtain rfl := Option.some.inj hb
      have hpos := (vlen_bounds (v / 0x80)).1
      rw [getLsbD_seven_iff, continued_group_toNat, List.length_cons, venc_length _ (by omega)]
      omega
    | succ i => rw [ih i b hb, List.length_cons, Nat.add_lt_add_iff_right]

/-! ### Varint decoding (30_encoding.md R85) -/

/-- A byte without bit 7 ends the varint. -/
theorem vdecLoop_final {k v : Nat} {b : Byte} {rest : List Byte} (hb : b.toNat < 0x80) (hlast : k = 4 → b.toNat ≤ 0x0F)
    (hzero : 0 < k → b.toNat ≠ 0) : vdecLoop k v (b :: rest) = some (v + b.toNat * 2 ^ (7 * k), rest) := by
  rw [vdecLoop, if_neg (by omega)]
  simp only [hb, if_pos, Nat.mod_eq_of_lt]
  exact if_neg (by omega)

/-- A byte with bit 7 hands its group on, unless it is the fifth. -/
theorem vdecLoop_continued {k v : Nat} {b : Byte} {rest : List Byte} (hb : 0x80 ≤ b.toNat) (hk : k ≠ 4) :
    vdecLoop k v (b :: rest) = vdecLoop (k + 1) (v + b.toNat % 0x80 * 2 ^ (7 * k)) rest := by
  rw [vdecLoop, if_neg (by omega)]
  exact if_neg (by omega)

/-- What an accepted first byte says. -/
theorem vdecLoop_cons_some {k v w : Nat} {b : Byte} {l rest : List Byte} (h : vdecLoop k v (b :: l) = some (w, rest)) :
    (b.toNat < 0x80 ∧ (k = 4 → b.toNat ≤ 0x0F) ∧ (0 < k → b.toNat ≠ 0) ∧ w = v + b.toNat * 2 ^ (7 * k) ∧ l = rest) ∨
    (0x80 ≤ b.toNat ∧ k ≠ 4 ∧ vdecLoop (k + 1) (v + b.toNat % 0x80 * 2 ^ (7 * k)) l = some (w, rest)) := by
  rw [vdecLoop] at h
  split at h
  · cases h
  next hfifth =>
    dsimp only at h
    split at h
    next hb =>
      split at h
      · cases h
      next hzero =>
        rw [Nat.mod_eq_of_lt hb] at h
        obtain ⟨rfl, rfl⟩ := Prod.mk.inj (Option.some.inj h)
        exact .inl ⟨hb, by omega, by omega, rfl, rfl⟩
    next hb => exact .inr ⟨by omega, by omega, h⟩

/-- A group `g` at place `k` and the value `u` of the groups above it. -/
theorem add_groups (v g u k : Nat) :
    v + g * 2 ^ (7 * k) + u * 2 ^ (7 * (k + 1)) = v + (g + 0x80 * u) * 2 ^ (7 * k) := by
  rw [two_pow_group]; ring

theorem vdecLoop_last_group {k u : Nat} (v : Nat) (rest : List Byte) (hu : u < 0x80) (hlast : k = 4 → u ≤ 0x0F)
    (hzero : 0 < k → u ≠ 0) : vdecLoop k v ([BitVec.ofNat 8 u] ++ rest) = some (v + u * 2 ^ (7 * k), rest) := by
  have hbyte := group_toNat hu
  rw [List.singleton_append, vdecLoop_final (by omega) (by omega) (by omega), hbyte]

/-- Decoding from the `k`-th byte on reads back what encoding with `j` bytes after the first emits. -/
theorem vdecLoop_vencLoop {j k u : Nat} (v : Nat) (rest : List Byte) (hjk : j + k = 4) (hu : u < 2 ^ (7 * j) * 2 ^ 4)
    (hzero : 0 < k → u ≠ 0) : vdecLoop k v (vencLoop j u ++ rest) = some (v + u * 2 ^ (7 * k), rest) := by
  induction j generalizing k u v with
  | zero =>
    have hsmall : u < 0x80 := by omega
    rw [vencLoop_small hsmall]
    exact vdecLoop_last_group v rest hsmall (by omega) hzero
  | succ j ih =>
    rcases lt_or_ge u 0x80 with hsmall | hbig
    · rw [vencLoop_small hsmall]
      exact vdecLoop_last_group v rest hsmall (by omega) hzero
    · have hrest : u / 0x80 < 2 ^ (7 * j) * 2 ^ 4 :=
        Nat.div_lt_of_lt_mul (by rwa [← mul_assoc, ← two_pow_group])
      have hbyte := continued_group_toNat u
      rw [vencLoop_big hbig, List.cons_append, vdecLoop_continued (by omega) (by omega), hbyte, Nat.add_mod_right,
        Nat.mod_mod, ih _ (by omega) hrest (by omega), add_groups, Nat.mod_add_div]

/-- What decoding from the `k`-th byte on accepts is what encoding with `j` bytes after the first emits. -/
theorem eq_vencLoop_of_vdecLoop {j k v w : Nat} {l rest : List Byte} (hjk : j + k = 4)
    (h : vdecLoop k v l = some (w, rest)) :
    ∃ u, u < 2 ^ (7 * j) * 2 ^ 4 ∧ (0 < k → u ≠ 0) ∧ w = v + u * 2 ^ (7 * k) ∧ l = vencLoop j u ++ rest := by
  induction l generalizing j k v with
  | nil => cases h
  | cons b l ih =>
    rcases vdecLoop_cons_some h with ⟨hb, hlast, hzero, rfl, rfl⟩ | ⟨hb, hk, htail⟩
    · refine ⟨b.toNat, ?_, hzero, rfl, by rw [vencLoop_small hb, BitVec.ofNat_toNat, BitVec.setWidth_eq]; rfl⟩
      cases j with
      | zero => have := hlast (by omega); omega
      | succ j => rw [two_pow_group]; have := Nat.two_pow_pos (7 * j); omega
    · obtain ⟨j, rfl⟩ : ∃ j', j = j' + 1 := Nat.exists_eq_succ_of_ne_zero (by omega)
      obtain ⟨u, hu, hpos, rfl, rfl⟩ := ih (j := j) (by omega) htail
      have hbyte : (b.toNat % 0x80 + 0x80 * u) % 0x80 + 0x80 = b.toNat := by have := b.isLt; omega
      have habove : (b.toNat % 0x80 + 0x80 * u) / 0x80 = u := by omega
      refine ⟨b.toNat % 0x80 + 0x80 * u, ?_, by omega, ?_, ?_⟩
      · rw [two_pow_group, mul_assoc]; omega
      · exact add_groups ..
      · rw [vencLoop_big (by omega), hbyte, habove, BitVec.ofNat_toNat, BitVec.setWidth_eq]; rfl

theorem vdec_venc {v : Nat} (h : v < 2 ^ 32) (rest : List Byte) : vdec (venc v ++ rest) = some (v, rest) := by
  rw [vdec, venc, vdecLoop_vencLoop 0 rest rfl (by omega) (by omega)]
  simp

theorem eq_venc_of_vdec {v : Nat} {l rest : List Byte} (h : vdec l = some (v, rest)) :
    v < 2 ^ 32 ∧ l = venc v ++ rest := by
  obtain ⟨u, hu, -, hv, hl⟩ := eq_vencLoop_of_vdecLoop (j := 4) rfl h
  obtain rfl : v = u := by simpa using hv
  exact ⟨by omega, hl⟩

/-! ### The obligations of 30_encoding.md -/

/-- Settles O12: venc_small and venc_big for the bytes; the length and the continuation bits by varint_induction. -/
theorem varintEncoding : Obligations.VarintEncoding := by
  refine ⟨fun v => venc_small, fun v => venc_big, fun v hv => ?_, rfl, rfl, rfl, rfl⟩
  obtain ⟨hlow, hhigh⟩ := vlen_bounds v
  have hlen := venc_length v hv
  exact ⟨hlen, by omega, by omega, venc_continuation v hv⟩

/-- Settles O13: an accepted sequence is an encoding (eq_venc_of_vdec) and an encoding is accepted (vdec_venc). -/
theorem varintDecodingIsCanonical : Obligations.VarintDecodingIsCanonical :=
  fun _ rest _ => ⟨eq_venc_of_vdec, fun ⟨hv, hl⟩ => hl ▸ vdec_venc hv rest⟩

/-- Settles O1: decode_encode, which needs no well-formedness. -/
theorem decodeOfEncodeIsTheCommand : Obligations.DecodeOfEncodeIsTheCommand := fun i _ => decode_encode i

/-- Settles O2: eq_encode_of_decode one way, decode_encode the other. -/
theorem decodeSelectsByTheFullWord : Obligations.DecodeSelectsByTheFullWord :=
  ⟨fun _ i => ⟨eq_encode_of_decode, fun hw => hw ▸ decode_encode i⟩, rfl, rfl, rfl, rfl, rfl, rfl, rfl⟩

/-- Settles O3: the legal words are encodings; the illegal ones are decoded. -/
theorem writtenOutWordsDecode : Obligations.WrittenOutWordsDecode :=
  ⟨decode_encode .fenc, decode_encode .pdec, decode_encode .rel, rfl, rfl, rfl, rfl⟩

/-- Settles O4: illegalWord_iff for the words; the CMD write is writeCmd, which answers an illegal word with RESULT alone. -/
theorem illegalWordHasOneEffect : Obligations.IllegalWordHasOneEffect :=
  ⟨fun _ => illegalWord_iff, fun _ _ _ h hw => (step_writeCmd h).trans (writeCmd_of_illegalWord hw _)⟩

/-- Settles O7: the four bytes of any word make it up; the given values are computed. -/
theorem fcsIsTheChecksumLeastByteFirst : Obligations.FcsIsTheChecksumLeastByteFirst := by
  have hvector : crc32 [0x7B#8, 0x00#8, 0x41#8] = 0xA63E2FA5#32 := by decide +kernel
  exact ⟨fun l => ⟨_, _, _, _, rfl, toNat_eq_sum_wordBytes _⟩, congrArg wordBytes hvector, by decide +kernel, rfl,
    hvector, by decide +kernel⟩

/-- Settles O57: lines of one access by definition, a `mem` line by induction on its bytes. -/
theorem hostLinesEncodeAsTransactions : Obligations.HostLinesEncodeAsTransactions :=
  ⟨fun _ => rfl, fun _ _ => rfl, fun _ => rfl, rfl, rfl, memLineInputs_getElem?⟩

end Sys2Proof.Machine

namespace Sys2Proof.Machine

/-! ### Escaping a byte in front (30_encoding.md R78) -/

theorem escapeAll_cons_special {b : Byte} (l : List Byte) (h : b = FLAG ∨ b = ESC) :
    escapeAll (b :: l) = ESC :: (b ^^^ MASK) :: escapeAll l := by
  rw [escapeAll_cons, esc_special h]; rfl

theorem escapeAll_cons_plain {b : Byte} (l : List Byte) (hflag : b ≠ FLAG) (hesc : b ≠ ESC) :
    escapeAll (b :: l) = b :: escapeAll l := by
  rw [escapeAll_cons, esc_plain hflag hesc]; rfl

/-! ### The unescaping loop (40_frame_codec.md R101) -/

/-- Induction along the branches of the unescaping loop. -/
theorem escape_induction {P : List Byte → Prop} (nil : P []) (flag : ∀ l, P (FLAG :: l)) (trailing : P [ESC])
    (escapedFlag : ∀ l, P (ESC :: FLAG :: l)) (escaped : ∀ n l, n ≠ FLAG → P l → P (ESC :: n :: l))
    (plain : ∀ b l, b ≠ FLAG → b ≠ ESC → P l → P (b :: l)) : ∀ l, P l
  | [] => nil
  | b :: l => by
    by_cases hflag : b = FLAG
    · exact hflag ▸ flag l
    by_cases hesc : b = ESC
    · subst hesc
      match l with
      | [] => exact trailing
      | n :: l =>
        by_cases hn : n = FLAG
        · exact hn ▸ escapedFlag l
        · exact escaped n l hn (escape_induction nil flag trailing escapedFlag escaped plain l)
    · exact plain b l hflag hesc (escape_induction nil flag trailing escapedFlag escaped plain l)

/-- A pass that reads `b` and ends well has ended well on the rest. -/
theorem eq_ok_of_map_cons {b : Byte} {x : Except FrameFail (List Byte)} {raw : List Byte}
    (h : (x.map fun raw => b :: raw) = .ok raw) : ∃ raw', x = .ok raw' ∧ b :: raw' = raw := by
  cases x with
  | error e => cases h
  | ok raw' => exact ⟨raw', rfl, Except.ok.inj h⟩

/-- What the loop does with a sequence that it accepts: nothing, or an escape, or a plain byte, and then the rest. -/
theorem unescape_ok_induction {P : List Byte → List Byte → Prop} (nil : P [] [])
    (escaped : ∀ n l raw, n ≠ FLAG → P l raw → P (ESC :: n :: l) ((n ^^^ MASK) :: raw))
    (plain : ∀ b l raw, b ≠ FLAG → b ≠ ESC → P l raw → P (b :: l) (b :: raw)) :
    ∀ l {raw}, unescape l = .ok raw → P l raw := by
  refine escape_induction ?_ ?_ ?_ ?_ ?_ ?_
  · intro raw h
    rw [unescape_nil] at h
    exact Except.ok.inj h ▸ nil
  · intro l raw h
    rw [unescape_flag] at h; cases h
  · intro raw h
    rw [unescape_trailing] at h; cases h
  · intro l raw h
    rw [unescape_escapedFlag] at h; cases h
  · intro n l hn ih raw h
    rw [unescape_escaped l hn] at h
    obtain ⟨raw, hl, rfl⟩ := eq_ok_of_map_cons h
    exact escaped n l raw hn (ih hl)
  · intro b l hflag hesc ih raw h
    rw [unescape_plain l hflag hesc] at h
    obtain ⟨raw, hl, rfl⟩ := eq_ok_of_map_cons h
    exact plain b l raw hflag hesc (ih hl)

theorem unescape_length_le {l raw : List Byte} (h : unescape l = .ok raw) : raw.length ≤ l.length := by
  refine unescape_ok_induction (P := fun l raw => raw.length ≤ l.length) ?_ ?_ ?_ l h
  · exact Nat.le_refl 0
  · intro n l raw _ ih
    exact Nat.le_succ_of_le (Nat.succ_le_succ ih)
  · intro b l raw _ _ ih
    exact Nat.succ_le_succ ih

/-- A FLAG anywhere in the body ends the loop, whatever stands before it. -/
theorem unescape_of_flag_mem : ∀ l : List Byte, FLAG ∈ l → unescape l = .error .flagInBody := by
  refine escape_induction ?_ ?_ ?_ ?_ ?_ ?_
  · exact fun h => absurd h List.not_mem_nil
  · exact fun l _ => unescape_flag l
  · exact fun h => absurd h (by decide)
  · exact fun l _ => unescape_escapedFlag l
  · intro n l hn ih h
    have hl : FLAG ∈ l := by simpa [show FLAG ≠ ESC by decide, hn.symm] using h
    rw [unescape_escaped l hn, ih hl]; rfl
  · intro b l hflag hesc ih h
    have hl : FLAG ∈ l := by simpa [hflag.symm] using h
    rw [unescape_plain l hflag hesc, ih hl]; rfl

/-! ### Canonical form (40_frame_codec.md R105, R107) -/

theorem canonicalEscapes_cons {b : Byte} {l : List Byte} :
    CanonicalEscapes (b :: l) ↔
      (b = ESC → l.head? = some 0x5D#8 ∨ l.head? = some 0x5E#8) ∧ CanonicalEscapes l := by
  rw [List.head?_eq_getElem?]
  constructor
  · exact fun h => ⟨fun hb => h 0 (congrArg some hb), fun i => h (i + 1)⟩
  · rintro ⟨hhead, htail⟩ (_ | i)
    · exact fun hb => hhead (Option.some.inj hb)
    · exact htail i

theorem canonicalEscapes_nil : CanonicalEscapes [] := by simp [CanonicalEscapes]

theorem canonicalEscapes_cons_plain {b : Byte} {l : List Byte} (hb : b ≠ ESC) :
    CanonicalEscapes (b :: l) ↔ CanonicalEscapes l := by
  simp [canonicalEscapes_cons, hb]

/-- A closing FLAG neither makes nor breaks canonical form. -/
theorem canonicalEscapes_append_flag {l : List Byte} : CanonicalEscapes (l ++ [FLAG]) ↔ CanonicalEscapes l := by
  induction l with
  | nil => simp [canonicalEscapes_cons, canonicalEscapes_nil, show FLAG ≠ ESC by decide]
  | cons b l ih =>
    rw [List.cons_append, canonicalEscapes_cons, canonicalEscapes_cons, ih]
    cases l with
    | nil => simp [FLAG]
    | cons c l => rfl

theorem masked_canonical {b : Byte} (h : b = FLAG ∨ b = ESC) : b ^^^ MASK = 0x5D#8 ∨ b ^^^ MASK = 0x5E#8 := by
  rcases h with rfl | rfl <;> decide

/-- The two bytes that may follow ESC are the masked forms of the two bytes that need escaping. -/
theorem special_of_canonical {n : Byte} (h : n = 0x5D#8 ∨ n = 0x5E#8) : n ^^^ MASK = FLAG ∨ n ^^^ MASK = ESC := by
  rcases h with rfl | rfl <;> decide

theorem canonicalEscapes_escapeAll (l : List Byte) : CanonicalEscapes (escapeAll l) := by
  induction l with
  | nil => exact canonicalEscapes_nil
  | cons b l ih =>
    by_cases hb : b = FLAG ∨ b = ESC
    · have hmasked : b ^^^ MASK ≠ ESC := by rcases hb with rfl | rfl <;> decide
      rw [escapeAll_cons_special l hb, canonicalEscapes_cons]
      refine ⟨fun _ => ?_, (canonicalEscapes_cons_plain hmasked).2 ih⟩
      simpa using masked_canonical hb
    · obtain ⟨hflag, hesc⟩ := not_or.1 hb
      rw [escapeAll_cons_plain l hflag hesc]
      exact (canonicalEscapes_cons_plain hesc).2 ih

theorem canonicalEscapes_frameEncode (a c : Byte) (p : List Byte) : CanonicalEscapes (frameEncode a c p) := by
  rw [frameEncode_eq, canonicalEscapes_cons_plain (by decide), canonicalEscapes_append_flag]
  exact canonicalEscapes_escapeAll _

theorem escapeAll_of_unescape {l raw : List Byte} (h : unescape l = .ok raw) (hc : CanonicalEscapes l) :
    escapeAll raw = l := by
  refine unescape_ok_induction (P := fun l raw => CanonicalEscapes l → escapeAll raw = l) ?_ ?_ ?_ l h hc
  · exact fun _ => escapeAll_nil
  · intro n l raw _ ih hc
    obtain ⟨hn, hc⟩ := canonicalEscapes_cons.1 hc
    have hspecial := special_of_canonical (by simpa using hn rfl)
    rw [escapeAll_cons_special raw hspecial, mask_mask, ih (canonicalEscapes_cons.1 hc).2]
  · intro b l raw hflag hesc ih hc
    rw [escapeAll_cons_plain raw hflag hesc, ih ((canonicalEscapes_cons_plain hesc).1 hc)]

/-! ### What frameDecode accepts (40_frame_codec.md R101) -/

theorem frameDecode_delimiter {f : List Byte} (h : f.head? ≠ some FLAG ∨ f.getLast? ≠ some FLAG) :
    frameDecode f = .error .delimiter := if_pos (.inr h)

theorem frameRaw_of_checkRaw {raw : List Byte} {d : Decoded} (h : checkRaw raw = .ok d) :
    raw = frameRaw d.address d.control d.payload := by
  unfold checkRaw at h
  split at h
  · cases h
  dsimp only at h
  split at h
  · cases h
  next hfcs =>
    split at h
    next a c p hbody =>
      obtain rfl := Except.ok.inj h
      rw [frameRaw, ← hbody, ← not_not.1 hfcs, List.take_append_drop]
    · cases h

theorem delimited_of_ends {f : List Byte} (hlen : ¬ f.length < 2) (hhead : f.head? = some FLAG)
    (hlast : f.getLast? = some FLAG) : f = FLAG :: (f.tail.dropLast ++ [FLAG]) := by
  obtain ⟨l, rfl⟩ := List.head?_eq_some_iff.1 hhead
  have hl : l ≠ [] := by rintro rfl; simp at hlen
  rw [List.getLast?_cons_of_ne_nil hl] at hlast
  obtain ⟨inner, rfl⟩ := List.getLast?_eq_some_iff.1 hlast
  simp

/-- An accepted sequence is a body between two delimiters that unescapes to some frame's raw bytes. -/
theorem frameDecode_ok {f : List Byte} {d : Decoded} (h : frameDecode f = .ok d) :
    ∃ inner, f = FLAG :: (inner ++ [FLAG]) ∧ unescape inner = .ok (frameRaw d.address d.control d.payload) := by
  unfold frameDecode at h
  split at h
  · cases h
  next hends =>
    simp only [not_or, not_not] at hends
    obtain ⟨hlen, hhead, hlast⟩ := hends
    refine ⟨_, delimited_of_ends hlen hhead hlast, ?_⟩
    split at h
    · cases h
    next raw hraw => rw [hraw, frameRaw_of_checkRaw h]

theorem frameEncode_eq_iff_canonicalEscapes {f : List Byte} {d : Decoded} (h : frameDecode f = .ok d) :
    frameEncode d.address d.control d.payload = f ↔ CanonicalEscapes f := by
  refine ⟨fun hf => hf ▸ canonicalEscapes_frameEncode _ _ _, fun hc => ?_⟩
  obtain ⟨inner, rfl, hraw⟩ := frameDecode_ok h
  rw [canonicalEscapes_cons_plain (by decide), canonicalEscapes_append_flag] at hc
  rw [frameEncode_eq, escapeAll_of_unescape hraw hc]

/-! ### The bytes of a frame (40_frame_codec.md R104, R107) -/

theorem length_le_escapeAll (l : List Byte) : l.length ≤ (escapeAll l).length :=
  unescape_length_le (unescape_escapeAll l)

theorem escapeAll_of_plain {l : List Byte} (h : ∀ b ∈ l, b ≠ FLAG ∧ b ≠ ESC) : escapeAll l = l := by
  induction l with
  | nil => rfl
  | cons b l ih =>
    obtain ⟨⟨hflag, hesc⟩, hl⟩ := List.forall_mem_cons.1 h
    rw [escapeAll_cons_plain l hflag hesc, ih hl]

theorem escapeAll_length_of_special {l : List Byte} (h : ∀ b ∈ l, b = FLAG ∨ b = ESC) :
    (escapeAll l).length = 2 * l.length := by
  induction l with
  | nil => rfl
  | cons b l ih =>
    obtain ⟨hb, hl⟩ := List.forall_mem_cons.1 h
    rw [escapeAll_cons_special l hb]
    simp only [List.length_cons, ih hl]
    omega

theorem flag_not_mem_escapeAll (l : List Byte) : FLAG ∉ escapeAll l := by
  intro h
  have hfail := unescape_of_flag_mem _ h
  rw [unescape_escapeAll] at hfail
  cases hfail

theorem frameEncode_getElem?_flag (a c : Byte) (p : List Byte) (i : Nat) :
    (frameEncode a c p)[i]? = some FLAG ↔ i = 0 ∨ i + 1 = (frameEncode a c p).length := by
  rw [frameEncode_length, frameEncode_eq]
  cases i with
  | zero => simp
  | succ k =>
    rw [List.getElem?_cons_succ]
    rcases lt_trichotomy k (escapeAll (frameRaw a c p)).length with hin | rfl | hout
    · have hne : (escapeAll (frameRaw a c p))[k]? ≠ some FLAG := fun h =>
        flag_not_mem_escapeAll _ (List.mem_of_getElem? h)
      rw [List.getElem?_append_left hin]
      exact iff_of_false hne (by omega)
    · simp
    · rw [List.getElem?_eq_none (by simpa using hout)]
      exact iff_of_false nofun (by omega)

/-! ### The checksum tells one changed byte (30_encoding.md R79, 40_frame_codec.md R106) -/

/-- The polynomial's bit 31 is set, so bit 31 of the register after a step is the bit shifted out. -/
theorem crcBit_msb (c : Word) : (crcBit c).getLsbD 31 = c.getLsbD 0 := by
  unfold crcBit
  split
  next h => simpa using h.symm
  next h => simpa using h

theorem crcBit_shift (c : Word) :
    c >>> 1 = crcBit c ^^^ (if c.getLsbD 0 then 0xEDB88320#32 else 0#32) := by
  unfold crcBit
  split
  · rw [BitVec.xor_assoc, BitVec.xor_self, BitVec.xor_zero]
  · rw [BitVec.xor_zero]

theorem crcBit_injective : Function.Injective crcBit := by
  intro c d h
  have hlow : c.getLsbD 0 = d.getLsbD 0 := by rw [← crcBit_msb c, ← crcBit_msb d, h]
  have hhigh : c >>> 1 = d >>> 1 := by rw [crcBit_shift c, crcBit_shift d, h, hlow]
  refine BitVec.eq_of_getLsbD_eq fun i _ => ?_
  cases i with
  | zero => exact hlow
  | succ i =>
    have hi := congrArg (fun w : Word => w.getLsbD i) hhigh
    simpa [Nat.add_comm 1 i] using hi

theorem crcBits_injective (n : Nat) : Function.Injective (crcBits n) := by
  induction n with
  | zero => exact Function.injective_id
  | succ n ih => exact ih.comp crcBit_injective

theorem crcByte_left_injective (b : Byte) : Function.Injective fun c => crcByte c b := fun _ _ h =>
  (BitVec.xor_left_inj _).1 (crcBits_injective 8 h)

theorem crcByte_right_injective (c : Word) : Function.Injective (crcByte c) := by
  intro b d h
  have hwide : zext32 b = zext32 d := (BitVec.xor_right_inj _).1 (crcBits_injective 8 h)
  exact BitVec.eq_of_toNat_eq (by rw [← zext32_toNat b, ← zext32_toNat d, hwide])

theorem foldl_crcByte_injective (l : List Byte) : Function.Injective fun c => l.foldl crcByte c := by
  induction l with
  | nil => exact Function.injective_id
  | cons b l ih => exact ih.comp (crcByte_left_injective b)

theorem foldl_crcByte_set_ne {l : List Byte} {m : Nat} {b v : Byte} (c : Word) (hb : l[m]? = some b) (hv : v ≠ b) :
    (l.set m v).foldl crcByte c ≠ l.foldl crcByte c := by
  induction l generalizing m c with
  | nil => cases hb
  | cons x l ih =>
    cases m with
    | zero =>
      obtain rfl := Option.some.inj hb
      exact fun h => hv (crcByte_right_injective c (foldl_crcByte_injective l h))
    | succ m => exact ih (crcByte c x) hb

theorem wordBytes_injective : Function.Injective wordBytes := by
  intro c d h
  simp only [wordBytes, List.cons.injEq, and_true] at h
  obtain ⟨h0, h1, h2, h3⟩ := h
  refine BitVec.eq_of_toNat_eq ?_
  rw [toNat_eq_sum_wordBytes c, toNat_eq_sum_wordBytes d, h0, h1, h2, h3]

theorem fcs_set_ne {l : List Byte} {m : Nat} {b v : Byte} (hb : l[m]? = some b) (hv : v ≠ b) :
    fcs (l.set m v) ≠ fcs l := fun h =>
  foldl_crcByte_set_ne _ hb hv ((BitVec.xor_left_inj _).1 (wordBytes_injective h))

/-! ### A frame with one byte changed (40_frame_codec.md R106) -/

theorem set_ne_self {l : List Byte} {m : Nat} {b v : Byte} (hb : l[m]? = some b) (hv : v ≠ b) : l.set m v ≠ l := by
  obtain ⟨hm, -⟩ := List.getElem?_eq_some_iff.1 hb
  intro h
  rw [← h, List.getElem?_set_self hm] at hb
  exact hv (Option.some.inj hb)

theorem checkRaw_append {body tail : List Byte} (hbody : 2 ≤ body.length) (htail : tail.length = 4)
    (h : tail ≠ fcs body) : checkRaw (body ++ tail) = .error .checksum := by
  have hlen : (body ++ tail).length - 4 = body.length := by rw [List.length_append]; omega
  have hlong : ¬ (body ++ tail).length < 6 := by rw [List.length_append]; omega
  rw [checkRaw, if_neg hlong, hlen, List.take_left, List.drop_left]
  exact if_pos h

/-- One changed byte of the raw bytes, in the body or in the checksum, fails the check. -/
theorem checkRaw_set {a c : Byte} {p : List Byte} {m : Nat} {b v : Byte} (hb : (frameRaw a c p)[m]? = some b)
    (hv : v ≠ b) : checkRaw ((frameRaw a c p).set m v) = .error .checksum := by
  rw [frameRaw] at hb ⊢
  rw [List.set_append]
  rcases lt_or_ge m (a :: c :: p).length with hbody | hfcs
  · rw [List.getElem?_append_left hbody] at hb
    rw [if_pos hbody]
    exact checkRaw_append (by simp) rfl (fcs_set_ne hb hv).symm
  · rw [List.getElem?_append_right hfcs] at hb
    rw [if_neg (Nat.not_lt.2 hfcs)]
    exact checkRaw_append (by simp) (by simp) (set_ne_self hb hv)

/-- A byte of one byte's escape, other than the escape marker, changed into one that needs no escaping: the loop reads
another byte there and goes on behind it. -/
theorem unescape_set_esc {x b v : Byte} {k : Nat} (hb : (esc x)[k]? = some b) (hesc : b ≠ ESC) (hv : v ≠ b)
    (hvflag : v ≠ FLAG) (hvesc : v ≠ ESC) :
    ∃ y, y ≠ x ∧ ∀ rest, unescape ((esc x).set k v ++ rest) = (unescape rest).map fun raw => y :: raw := by
  by_cases hx : x = FLAG ∨ x = ESC
  · rw [esc_special hx] at hb ⊢
    match k with
    | 0 => exact absurd (Option.some.inj hb).symm hesc
    | 1 =>
      obtain rfl := Option.some.inj hb
      refine ⟨v ^^^ MASK, fun h => hv ?_, fun rest => unescape_escaped rest hvflag⟩
      rw [← h, mask_mask]
    | k + 2 => cases hb
  · obtain ⟨hxflag, hxesc⟩ := not_or.1 hx
    rw [esc_plain hxflag hxesc] at hb ⊢
    match k with
    | 0 =>
      obtain rfl := Option.some.inj hb
      exact ⟨v, hv, fun rest => unescape_plain rest hvflag hvesc⟩
    | k + 1 => cases hb

/-- The same change in an escaped sequence: unescaping gives the raw sequence with one byte changed. -/
theorem unescape_set_escapeAll {l : List Byte} {k : Nat} {b v : Byte} (hb : (escapeAll l)[k]? = some b)
    (hesc : b ≠ ESC) (hv : v ≠ b) (hvflag : v ≠ FLAG) (hvesc : v ≠ ESC) :
    ∃ m x y, l[m]? = some x ∧ y ≠ x ∧ unescape ((escapeAll l).set k v) = .ok (l.set m y) := by
  induction l generalizing k with
  | nil => cases hb
  | cons x l ih =>
    rw [escapeAll_cons] at hb ⊢
    rw [List.set_append]
    rcases lt_or_ge k (esc x).length with hin | hout
    · rw [List.getElem?_append_left hin] at hb
      obtain ⟨y, hy, hread⟩ := unescape_set_esc hb hesc hv hvflag hvesc
      rw [if_pos hin, hread, unescape_escapeAll]
      exact ⟨0, x, y, rfl, hy, rfl⟩
    · rw [List.getElem?_append_right hout] at hb
      obtain ⟨m, x', y, hx', hy, hread⟩ := ih hb
      rw [if_neg (Nat.not_lt.2 hout), unescape_esc_append, hread]
      exact ⟨m + 1, x', y, hx', hy, rfl⟩

theorem flipBit_ne (b : Byte) {j : Nat} (hj : j < 8) : flipBit b j ≠ b := by
  intro h
  have hmask : 1#8 <<< j = 0#8 := by simpa [flipBit] using h
  interval_cases j <;> exact absurd hmask (by decide)

section
variable {a c : Byte} {p : List Byte} {k : Nat} {b v : Byte}

theorem frameEncode_getElem?_inner (hk : k < (escapeAll (frameRaw a c p)).length) :
    (frameEncode a c p)[k + 1]? = (escapeAll (frameRaw a c p))[k]? := by
  rw [frameEncode_eq, List.getElem?_cons_succ, List.getElem?_append_left hk]

/-- Decoding a frame with a byte changed between the delimiters is unescaping the changed body. -/
theorem frameDecode_set_inner (v : Byte) (hk : k < (escapeAll (frameRaw a c p)).length) :
    frameDecode ((frameEncode a c p).set (k + 1) v) =
      (unescape ((escapeAll (frameRaw a c p)).set k v)).bind checkRaw := by
  rw [frameEncode_eq, List.set_cons_succ, List.set_append_left _ _ hk, frameDecode_delimited]
  cases unescape ((escapeAll (frameRaw a c p)).set k v) <;> rfl

theorem frameDecode_set_end {f : List Byte} {i : Nat} (hi : i < f.length) (hend : i = 0 ∨ i + 1 = f.length)
    (hv : v ≠ FLAG) : frameDecode (f.set i v) = .error .delimiter := by
  have hset : (f.set i v)[i]? ≠ some FLAG := by simpa [List.getElem?_set_self hi] using hv
  refine frameDecode_delimiter (hend.imp (fun h0 => ?_) fun hlast => ?_)
  · rwa [List.head?_eq_getElem?, ← h0]
  · rwa [List.getLast?_eq_getElem?, List.length_set, ← hlast]

theorem frameDecode_set_inner_flag (hk : k < (escapeAll (frameRaw a c p)).length) :
    frameDecode ((frameEncode a c p).set (k + 1) FLAG) = .error .flagInBody := by
  rw [frameDecode_set_inner FLAG hk, unescape_of_flag_mem _ (List.mem_set hk _)]
  rfl

theorem frameDecode_set_inner_plain (hk : k < (escapeAll (frameRaw a c p)).length)
    (hb : (frameEncode a c p)[k + 1]? = some b) (hesc : b ≠ ESC) (hv : v ≠ b) (hvflag : v ≠ FLAG) (hvesc : v ≠ ESC) :
    frameDecode ((frameEncode a c p).set (k + 1) v) = .error .checksum := by
  rw [frameEncode_getElem?_inner hk] at hb
  obtain ⟨m, x, y, hx, hy, hraw⟩ := unescape_set_escapeAll hb hesc hv hvflag hvesc
  rw [frameDecode_set_inner v hk, hraw]
  exact checkRaw_set hx hy

theorem exists_inner_of_between {i : Nat} (hpos : 0 < i) (hlast : i + 1 < (frameEncode a c p).length) :
    ∃ k, i = k + 1 ∧ k < (escapeAll (frameRaw a c p)).length := by
  rw [frameEncode_length] at hlast
  exact ⟨i - 1, by omega, by omega⟩

end

/-! ### The commands on regions in range (40_frame_codec.md R102, R103, 41_packet_protocol.md R134, R135) -/

section
variable {s t : State}

theorem fencBody_ready (hsrc : InRange s.cfg s.srcPtr s.srcLen) (hdst : InRange s.cfg s.dstPtr s.dstCap) :
    fencBody s = deliver (frameEncode s.frAddr s.frCtrl (srcBytes s)) id s :=
  if_neg (by simp [hsrc, hdst])

theorem fdecBody_ok {d : Decoded} (hsrc : InRange s.cfg s.srcPtr s.srcLen) (hdst : InRange s.cfg s.dstPtr s.dstCap)
    (hd : frameDecode (srcBytes s) = .ok d) :
    fdecBody s = deliver d.payload (fun t => t.setFrameFields d.address d.control) s := by
  rw [fdecBody, if_neg (by simp [hsrc, hdst]), hd]

theorem fdecBody_error {e : FrameFail} (hsrc : InRange s.cfg s.srcPtr s.srcLen)
    (hdst : InRange s.cfg s.dstPtr s.dstCap) (he : frameDecode (srcBytes s) = .error e) :
    fdecBody s = raise .corruptFrame s := by
  rw [fdecBody, if_neg (by simp [hsrc, hdst]), he]

theorem pencBody_ready (hpay : InRange s.cfg s.pktPayPtr s.pktPayLen) (hdst : InRange s.cfg s.dstPtr s.dstCap) :
    pencBody s = deliver (envelopeEncode (pktEnvelope s)) id s :=
  if_neg (by simp [hpay, hdst])

theorem pdecBody_error {e : EnvelopeFail} (hsrc : InRange s.cfg s.srcPtr s.srcLen)
    (he : envelopeDecode (srcBytes s) = .error e) : pdecBody s = raise .malformedPacket s := by
  rw [pdecBody, if_neg (by simp [hsrc]), he]

/-- FENC and FDEC name the same two regions. -/
theorem not_rangeBroken_frame {i : Instr} (hi : i = .fenc ∨ i = .fdec) (h : ¬ RangeBroken i s) :
    InRange s.cfg s.srcPtr s.srcLen ∧ InRange s.cfg s.dstPtr s.dstCap := by
  rcases hi with rfl | rfl <;> simpa [RangeBroken] using h

theorem not_rangeBroken_penc (h : ¬ RangeBroken .penc s) :
    InRange s.cfg s.pktPayPtr s.pktPayLen ∧ InRange s.cfg s.dstPtr s.dstCap := by
  simpa [RangeBroken] using h

theorem not_rangeBroken_pdec (h : ¬ RangeBroken .pdec s) : InRange s.cfg s.srcPtr s.srcLen := by
  simpa [RangeBroken] using h

theorem exists_error_of_ne_ok {ε α : Type} {x : Except ε α} (h : ∀ a, x ≠ .ok a) : ∃ e, x = .error e := by
  cases x with
  | error e => exact ⟨e, rfl⟩
  | ok a => exact absurd rfl (h a)

/-- A command with an output delivers it, with whatever it does after the store. -/
theorem exec_of_outputOf {i : Instr} {out : List Byte} (hf : s.fault = false) (hr : ¬ RangeBroken i s)
    (hout : OutputOf i s out) : ∃ more, exec i s = deliver out more s := by
  rcases hout with ⟨rfl, rfl⟩ | ⟨rfl, d, hd, rfl⟩ | ⟨rfl, rfl⟩
  · obtain ⟨hsrc, hdst⟩ := not_rangeBroken_frame (.inl rfl) hr
    exact ⟨_, (withPrologue_ready hf).trans (fencBody_ready hsrc hdst)⟩
  · obtain ⟨hsrc, hdst⟩ := not_rangeBroken_frame (.inr rfl) hr
    exact ⟨_, (withPrologue_ready hf).trans (fdecBody_ok hsrc hdst hd)⟩
  · obtain ⟨hpay, hdst⟩ := not_rangeBroken_penc hr
    exact ⟨_, (withPrologue_ready hf).trans (pencBody_ready hpay hdst)⟩

/-- A length within a register's value is kept by the register. -/
theorem toNat_ofNat_of_le {n : Nat} {w : Word} (h : n ≤ w.toNat) : (BitVec.ofNat 32 n).toNat = n := by
  rw [BitVec.toNat_ofNat, Nat.mod_eq_of_lt (lt_of_le_of_lt h w.isLt)]

/-- The shared end of FENC, FDEC and PENC when the output fits: what MEM, OUT_LEN and RESULT are, for a command that does
`more` after the store. -/
theorem deliver_output {out : List Byte} {more : State → State} (hfit : out.length ≤ s.dstCap.toNat)
    (hmore : ∀ u, (more u).mem = u.mem ∧ (more u).powerOn = u.powerOn) :
    ∃ t, deliver out more s = .next t ∧
      t = ((more (s.setMem t.mem)).setOutLen (BitVec.ofNat 32 out.length)).setResult .ok ∧
      t.outLen.toNat = out.length ∧ memRead t s.dstPtr.toNat out.length = out ∧
      ∀ a, ¬ Within s.dstPtr.toNat out.length a → readByte t a = readByte s a := by
  obtain ⟨hmem, hpow⟩ := hmore (memWrite s s.dstPtr.toNat out)
  refine ⟨_, deliver_fits hfit, ?_, toNat_ofNat_of_le hfit, reads_after_store _ hmem hpow⟩
  rw [State.setResult_mem, State.setOutLen_mem, hmem]
  rfl

/-- A FENC that ends in OK found FAULT 0, its regions in range and room for its frame. -/
theorem fenc_ok (h : exec .fenc s = .next t) (hok : t.result = .ok) :
    s.fault = false ∧ InRange s.cfg s.srcPtr s.srcLen ∧ InRange s.cfg s.dstPtr s.dstCap ∧
      (frameEncode s.frAddr s.frCtrl (srcBytes s)).length ≤ s.dstCap.toNat := by
  rcases withPrologue_next (body := fencBody) h with ⟨-, rfl⟩ | ⟨hf, hb⟩
  · cases hok
  · rcases fencBody_next hb with rfl | ⟨⟨hsrc, hdst⟩, hd⟩
    · cases hok
    · rcases deliver_next hd with ⟨-, rfl⟩ | ⟨hfit, -⟩
      · cases hok
      · exact ⟨hf, hsrc, hdst, hfit⟩

end

/-! ### The obligations of 40_frame_codec.md -/

/-- Settles O8: frameDecode_frameEncode; an accepted body in canonical form is the escaping of what it unescapes to. -/
theorem frameRoundTrip : Obligations.FrameRoundTrip :=
  ⟨frameDecode_frameEncode, fun _ _ => frameEncode_eq_iff_canonicalEscapes, by decide +kernel⟩

/-- Settles O9: escaping a byte gives one or two; an accepted body is no shorter than its raw bytes. -/
theorem frameLengthBounds : Obligations.FrameLengthBounds := by
  refine ⟨fun a c p => ⟨?_, frameEncode_length_le a c p, fun h => ?_, fun h => ?_⟩, fun f d h => ?_⟩
  · have hlow := length_le_escapeAll (frameRaw a c p)
    rw [frameRaw_length] at hlow
    rw [frameEncode_length]; omega
  · rw [frameEncode_length, escapeAll_of_plain h, frameRaw_length]
  · rw [frameEncode_length, escapeAll_length_of_special h, frameRaw_length]; omega
  · obtain ⟨inner, rfl, hraw⟩ := frameDecode_ok h
    have hlow := unescape_length_le hraw
    rw [frameRaw_length] at hlow
    simp only [List.length_cons, List.length_append, List.length_nil]; omega

/-- Settles O10: the escaped body holds no FLAG, since it unescapes, and is in canonical form. -/
theorem flagOnlyDelimitsAFrame : Obligations.FlagOnlyDelimitsAFrame :=
  fun a c p => ⟨frameEncode_getElem?_flag a c p, canonicalEscapes_frameEncode a c p⟩

/-- Settles O11: a flip changes its byte, and each of the three changes fails for its own reason whatever the new byte
is; CRC-32 tells any one changed byte, as each step of its register is injective. -/
theorem singleBitFlipIsDetected : Obligations.SingleBitFlipIsDetected := by
  intro a c p i j b hj hb
  have hflip : flipBit b j ≠ b := flipBit_ne b hj
  refine ⟨fun hend => ?_, fun hpos hlast hflag => ?_, fun hpos hlast hesc hvflag hvesc => ?_⟩
  · obtain rfl : FLAG = b := Option.some.inj (((frameEncode_getElem?_flag a c p i).2 hend).symm.trans hb)
    exact frameDecode_set_end (List.getElem?_eq_some_iff.1 hb).1 hend hflip
  · obtain ⟨k, rfl, hk⟩ := exists_inner_of_between hpos hlast
    rw [hflag]
    exact frameDecode_set_inner_flag hk
  · obtain ⟨k, rfl, hk⟩ := exists_inner_of_between hpos hlast
    exact frameDecode_set_inner_plain hk hb hesc hflip hvflag hvesc

/-- Settles O19: past its checks FENC delivers the frame, which was computed from MEM before the store. -/
theorem fencStoresTheFrame : Obligations.FencStoresTheFrame := by
  intro s hf hsrc hdst f hfit
  obtain ⟨t, hd, houtput⟩ := deliver_output (more := id) hfit fun _ => ⟨rfl, rfl⟩
  exact ⟨t, (withPrologue_ready hf).trans ((fencBody_ready hsrc hdst).trans hd), houtput⟩

/-- Settles O20: past its checks FDEC delivers the payload and then sets the two frame registers, which keeps MEM. -/
theorem fdecStoresThePayload : Obligations.FdecStoresThePayload := by
  intro s d hf hsrc hdst hdec hfit
  obtain ⟨t, hd, houtput⟩ :=
    deliver_output (more := fun u => u.setFrameFields d.address d.control) hfit fun _ => ⟨rfl, rfl⟩
  exact ⟨t, (withPrologue_ready hf).trans ((fdecBody_ok hsrc hdst hdec).trans hd), houtput⟩

/-- The host names other regions between two commands (10_state.md R27 to R30). -/
def State.setRegions (s : State) (srcPtr srcLen dstPtr dstCap : Word) : State :=
  { s with srcPtr := srcPtr, srcLen := srcLen, dstPtr := dstPtr, dstCap := dstCap }

theorem srcBytes_setRegions (s : State) (srcPtr srcLen dstPtr dstCap : Word) :
    srcBytes (s.setRegions srcPtr srcLen dstPtr dstCap) = memRead s srcPtr.toNat srcLen.toNat :=
  memRead_congr_mem (s := s) (t := s.setRegions srcPtr srcLen dstPtr dstCap) rfl rfl ..

/-- FDEC of a source that is an encoded frame gives back what was encoded. -/
theorem fdec_of_frameEncode {s : State} {a c : Byte} {p : List Byte} (hf : s.fault = false)
    (hsrc : InRange s.cfg s.srcPtr s.srcLen) (hdst : InRange s.cfg s.dstPtr s.dstCap)
    (hframe : srcBytes s = frameEncode a c p) (hfit : p.length ≤ s.dstCap.toNat) :
    ∃ u, exec .fdec s = .next u ∧ u.result = .ok ∧ u.frAddr = a ∧ u.frCtrl = c ∧
      u.outLen = BitVec.ofNat 32 p.length ∧ memRead u s.dstPtr.toNat p.length = p := by
  have hd : frameDecode (srcBytes s) = .ok { address := a, control := c, payload := p } :=
    hframe ▸ frameDecode_frameEncode a c p
  obtain ⟨u, hu, hueq, -, hstored, -⟩ := fdecStoresThePayload s _ hf hsrc hdst hd hfit
  refine ⟨u, hu, ?_, ?_, ?_, ?_, hstored⟩ <;> rw [hueq]

/-- Settles O48: by O19 the source of FDEC is the frame that FENC stored, and FDEC undoes it by fdec_of_frameEncode. -/
theorem fdecUndoesFenc : Obligations.FdecUndoesFenc := by
  intro s t ptr room h hok hroom hlen
  obtain ⟨hf, hsrc, hdst, hfit⟩ := fenc_ok h hok
  obtain ⟨t', h', -, houtLen, hstored, -⟩ := fencStoresTheFrame s hf hsrc hdst hfit
  obtain rfl : t' = t := Host.Outcome.next.inj (h'.symm.trans h)
  have hcfg : t'.cfg = s.cfg := (surroundings_eq_iff.1 (surroundings_exec .fenc h)).1
  have hfault : t'.fault = false := (flags_eq_iff.1 (flags_exec h nofun nofun)).2.trans hf
  have hread : InRange t'.cfg s.dstPtr t'.outLen := by
    rw [hcfg, InRange, houtLen]
    exact (Nat.add_le_add_left hfit _).trans hdst
  have hframe : memRead t' s.dstPtr.toNat t'.outLen.toNat = frameEncode s.frAddr s.frCtrl (srcBytes s) :=
    houtLen ▸ hstored
  obtain ⟨u, hu, hresult, haddr, hctrl, hulen, hpayload⟩ :=
    fdec_of_frameEncode (s := t'.setRegions s.dstPtr t'.outLen ptr room) hfault hread (hcfg ▸ hroom)
      ((srcBytes_setRegions ..).trans hframe) ((srcBytes_length s).trans_le hlen)
  rw [srcBytes_length] at hulen hpayload
  rw [BitVec.ofNat_toNat, BitVec.setWidth_eq] at hulen
  exact ⟨u, hu, hresult, haddr, hctrl, hulen, hpayload⟩

/-- Settles O32: deliver_tooSmall for the output of whichever command; a frame is never empty. -/
theorem tooSmallReportsTheLengthNeeded : Obligations.TooSmallReportsTheLengthNeeded := by
  refine ⟨fun i s out hf hr hout hlong => ?_, fun s hcap => ?_⟩
  · obtain ⟨more, hexec⟩ := exec_of_outputOf hf hr hout
    exact hexec.trans (deliver_tooSmall hlong)
  · refine ⟨_, .inl ⟨rfl, rfl⟩, ?_⟩
    rw [hcap, frameEncode_length]
    exact Nat.succ_pos _

/-- Settles O31: fdecBody_error and pdecBody_error. -/
theorem badContentChangesNothingElse : Obligations.BadContentChangesNothingElse := by
  refine ⟨fun s hf hr hbad => ?_, fun s hf hr hbad => ?_⟩
  · obtain ⟨hsrc, hdst⟩ := not_rangeBroken_frame (.inr rfl) hr
    obtain ⟨e, he⟩ := exists_error_of_ne_ok (x := frameDecode (srcBytes s)) (by simpa [ContentBroken] using hbad)
    exact (withPrologue_ready hf).trans (fdecBody_error hsrc hdst he)
  · obtain ⟨e, he⟩ := exists_error_of_ne_ok (x := envelopeDecode (srcBytes s)) (by simpa [ContentBroken] using hbad)
    exact (withPrologue_ready hf).trans (pdecBody_error (not_rangeBroken_pdec hr) he)

end Sys2Proof.Machine

namespace Sys2Proof.Machine

/-! ### The envelope decoder reads field after field (41_packet_protocol.md R132) -/

section
variable {total : Nat} {l rest : List Byte} {x x' y : Fields}

/-- One accepted pass of the decoding loop: from the bytes `l` to the bytes after a field, and the variables then. -/
inductive FieldRead (total : Nat) (x : Fields) : (l rest : List Byte) → Fields → Prop
  | type {w : Word} {rest : List Byte} (hlast : x.last < 1) (hw : w.toNat ≠ 0) :
      FieldRead total x (field 0x08#8 w.toNat ++ rest) rest { x with t := w, last := 1 }
  | channel {w : Word} {rest : List Byte} (hlast : x.last < 2) (hw : w.toNat ≠ 0) :
      FieldRead total x (field 0x10#8 w.toNat ++ rest) rest { x with ch := w, last := 2 }
  | service {w : Word} {rest : List Byte} (hlast : x.last < 3) :
      FieldRead total x (field 0x18#8 w.toNat ++ rest) rest { x with svc := some w, last := 3 }
  | method {w : Word} {rest : List Byte} (hlast : x.last < 4) :
      FieldRead total x (field 0x20#8 w.toNat ++ rest) rest { x with mth := some w, last := 4 }
  | payload {p rest : List Byte} (hlast : x.last < 5) (hp : p.length ≠ 0) (hlen : p.length < 2 ^ 32) :
      FieldRead total x (field 0x2A#8 p.length ++ (p ++ rest)) rest
        { x with poff := some (total - (p ++ rest).length), plen := p.length, last := 5 }
  | status {w : Word} {rest : List Byte} (hlast : x.last < 6) (hw : w.toNat ≠ 0) :
      FieldRead total x (field 0x30#8 w.toNat ++ rest) rest { x with st := w, last := 6 }

theorem ite_default_eq_ok {v : Nat} {y y' : Fields × List Byte} :
    (if v = 0 then .error .default else .ok y : Except EnvelopeFail _) = .ok y' ↔ v ≠ 0 ∧ y = y' := by
  split <;> simp_all

/-- The field that `takeField` accepts under a key. -/
theorem fieldRead_of_takeField {n : Nat} {k : Byte} {w : Word} {rest' : List Byte} (hkey : keyField k = some n)
    (hlast : x.last < n) (h : takeField total n w.toNat rest x = .ok (x', rest')) :
    FieldRead total x (field k w.toNat ++ rest) rest' x' := by
  unfold keyField at hkey
  split_ifs at hkey <;> subst k <;> cases hkey <;> simp only [takeField, BitVec.ofNat_toNat, BitVec.setWidth_eq] at h
  · obtain ⟨hw, he⟩ := ite_default_eq_ok.1 h
    cases he; exact .type hlast hw
  · obtain ⟨hw, he⟩ := ite_default_eq_ok.1 h
    cases he; exact .channel hlast hw
  · cases h; exact .service hlast
  · cases h; exact .method hlast
  · split_ifs at h with hw hlong
    have hlen : (rest.take w.toNat).length = w.toNat := by rw [List.length_take]; omega
    have hread := FieldRead.payload (total := total) (p := rest.take w.toNat) (rest := rest.drop w.toNat) hlast
      (by rwa [hlen]) (by rw [hlen]; exact w.isLt)
    rw [List.take_append_drop, hlen] at hread
    cases h; exact hread
  · obtain ⟨hw, he⟩ := ite_default_eq_ok.1 h
    cases he; exact .status hlast hw

/-- The decoding loop with as much fuel as there are bytes to read. -/
def readFields (total : Nat) (l : List Byte) (x : Fields) : Except EnvelopeFail Fields :=
  fieldLoop total l.length l x

/-- A field that `takeField` accepts is read off the front. -/
theorem readFields_field {n v : Nat} {k : Byte} {rest' : List Byte} (hkey : keyField k = some n) (hlast : x.last < n)
    (hv : v < 2 ^ 32) (htake : takeField total n v rest x = .ok (x', rest')) :
    readFields total (field k v ++ rest) x = readFields total rest' x' := by
  have hshort := takeField_shorter htake
  rw [readFields, field, List.cons_append, List.length_cons, fieldLoop_cons, hkey, vdec_venc hv]
  simp only [Nat.not_le.2 hlast, if_false, htake]
  exact fieldLoop_fuel (by rw [List.length_append]; omega) le_rfl

/-- The loop makes an accepted pass. -/
theorem FieldRead.readFields_eq (h : FieldRead total x l rest x') :
    readFields total l x = readFields total rest x' := by
  cases h with
  | type hlast hw => exact readFields_field rfl hlast (BitVec.isLt _) (by simp [takeField, hw])
  | channel hlast hw => exact readFields_field rfl hlast (BitVec.isLt _) (by simp [takeField, hw])
  | service hlast => exact readFields_field rfl hlast (BitVec.isLt _) (by simp [takeField])
  | method hlast => exact readFields_field rfl hlast (BitVec.isLt _) (by simp [takeField])
  | payload hlast hp hlen => exact readFields_field rfl hlast hlen (by simp [takeField, hp])
  | status hlast hw => exact readFields_field rfl hlast (BitVec.isLt _) (by simp [takeField, hw])

/-- A loop that ends well is at the end of the bytes or makes an accepted pass. -/
theorem readFields_ok (h : readFields total l x = .ok y) :
    (l = [] ∧ y = x) ∨
    ∃ rest x', rest.length < l.length ∧ FieldRead total x l rest x' ∧ readFields total rest x' = .ok y := by
  cases l with
  | nil => exact .inl ⟨rfl, by simpa [readFields, eq_comm] using h⟩
  | cons k l =>
    rw [readFields, List.length_cons, fieldLoop_cons] at h
    split at h
    · cases h
    next n hkey =>
    split at h
    · cases h
    next hlast =>
    split at h
    · cases h
    next v rest hv =>
    obtain ⟨hlt, rfl⟩ := eq_venc_of_vdec hv
    obtain ⟨w, rfl⟩ : ∃ w : Word, v = w.toNat := ⟨_, (Nat.mod_eq_of_lt hlt).symm.trans (BitVec.toNat_ofNat v 32).symm⟩
    split at h
    · cases h
    next x' rest' htake =>
    have hshort := takeField_shorter htake
    have hfuel : rest'.length ≤ (venc w.toNat ++ rest).length := by rw [List.length_append]; omega
    exact .inr ⟨rest', x', Nat.lt_succ_of_le hfuel, fieldRead_of_takeField hkey (Nat.not_le.1 hlast) htake,
      (fieldLoop_fuel le_rfl hfuel).trans h⟩

end

/-! ### What an accepted string is made of (41_packet_protocol.md R132, R137) -/

section
variable {total : Nat} {l rest : List Byte} {x x' y : Fields} {e : Envelope} {poff : Option Nat}

/-- A field that is always sent, once it has been read. -/
def readField (key : Byte) : Option Word → List Byte
  | none => []
  | some w => field key w.toNat

/-- The payload that the decoder's variables name in the source `l`. -/
def Fields.payload (x : Fields) (l : List Byte) : List Byte :=
  match x.poff with
  | none => []
  | some n => (l.drop n).take x.plen

/-- The bytes that encode field number `n` of what the variables hold. -/
def Fields.part (x : Fields) (l : List Byte) : Nat → List Byte
  | 1 => optField 0x08#8 x.t.toNat
  | 2 => optField 0x10#8 x.ch.toNat
  | 3 => readField 0x18#8 x.svc
  | 4 => readField 0x20#8 x.mth
  | 5 => payloadField (x.payload l)
  | 6 => optField 0x30#8 x.st.toNat
  | _ => []

/-- The bytes that encode what the variables hold: the parts in increasing field number. -/
def Fields.bytes (x : Fields) (l : List Byte) : List Byte := [1, 2, 3, 4, 5, 6].flatMap (x.part l)

/-- A part put in under `k`, where `k` and the numbers above it had none, comes last. -/
theorem flatMap_numbers_eq {f g : Nat → List Byte} {k : Nat} (hpos : 0 < k) (hsix : k ≤ 6) (hother : ∀ n ≠ k, g n = f n)
    (habsent : ∀ n, k ≤ n → f n = []) : [1, 2, 3, 4, 5, 6].flatMap g = [1, 2, 3, 4, 5, 6].flatMap f ++ g k := by
  interval_cases k <;> simp [hother, habsent]

/-- The payload that the variables name lies inside the source. -/
def Fields.PayloadInside (x : Fields) (l : List Byte) : Prop :=
  ∀ n, x.poff = some n → n + x.plen ≤ l.length ∧ x.plen ≠ 0 ∧ x.plen < 2 ^ 32

/-- `p` stands in a source at the index counted from the source's end. -/
theorem slice_before_rest (front p rest : List Byte) :
    ((front ++ (p ++ rest)).drop ((front ++ (p ++ rest)).length - (p ++ rest).length)).take p.length = p := by
  rw [List.length_append, Nat.add_sub_cancel, List.drop_left, List.take_left]

theorem FieldRead.last_lt (h : FieldRead total x l rest x') : x.last < x'.last ∧ x'.last ≤ 6 := by
  cases h <;> exact ⟨‹_›, by simp only; omega⟩

/-- A field that is read changes its own number's bytes alone: by the field read and by `n`, where `hn` rules out the
field's own number. -/
theorem FieldRead.part_other (h : FieldRead total x l rest x') {n : Nat} (hn : n ≠ x'.last) (src : List Byte) :
    x'.part src n = x.part src n := by
  cases h <;> unfold Fields.part <;> split <;> simp_all [Fields.payload]

/-- A field that is read after `front` becomes its own number's bytes. -/
theorem FieldRead.part_last {front src : List Byte} (hsrc : front ++ l = src) (h : FieldRead src.length x l rest x') :
    x'.part src x'.last ++ rest = l := by
  cases h with
  | type hlast hw => simp only [Fields.part, optField_pos hw]
  | channel hlast hw => simp only [Fields.part, optField_pos hw]
  | service hlast => rfl
  | method hlast => rfl
  | @payload p rest hlast hp hlen =>
    have hslice := slice_before_rest (front ++ field 0x2A#8 p.length) p rest
    rw [List.append_assoc, hsrc] at hslice
    simp only [Fields.part, Fields.payload, hslice, payloadField, if_pos hp, List.append_assoc]
  | status hlast hw => simp only [Fields.part, optField_pos hw]

/-- The bytes still to read are no longer than the source, so the index of a payload among them is not cut off at 0. -/
theorem FieldRead.payloadInside {src : List Byte} (h : FieldRead src.length x l rest x') (hlen : l.length ≤ src.length)
    (hx : x.PayloadInside src) : x'.PayloadInside src := by
  cases h with
  | @payload p rest hlast hp hlt =>
    intro n hn
    obtain rfl := Option.some.inj hn
    simp only [List.length_append] at hlen ⊢
    exact ⟨by omega, hp, hlt⟩
  | _ => exact hx

/-- The loop's invariant: `rest` is what is left of the source `l`, the bytes before it encode what the variables hold,
no field above the last one read is among them, and the payload lies inside the source. -/
structure ReadUpTo (l rest : List Byte) (x : Fields) : Prop where
  source : x.bytes l ++ rest = l
  absent : ∀ n, x.last < n → x.part l n = []
  inside : x.PayloadInside l

theorem readUpTo_start (l : List Byte) : ReadUpTo l l fieldsStart where
  source := rfl
  absent n _ := by unfold Fields.part; split <;> rfl
  inside := nofun

theorem ReadUpTo.step {src : List Byte} (h : ReadUpTo src l x) (hread : FieldRead src.length x l rest x') :
    ReadUpTo src rest x' := by
  obtain ⟨hlast, hsix⟩ := hread.last_lt
  have hother : ∀ n ≠ x'.last, x'.part src n = x.part src n := fun n hn => hread.part_other hn src
  have hbytes : x'.bytes src = x.bytes src ++ x'.part src x'.last :=
    flatMap_numbers_eq (by omega) hsix hother fun n hn => h.absent n (by omega)
  constructor
  · rw [hbytes, List.append_assoc, hread.part_last h.source, h.source]
  · intro n hn
    rw [hother n (by omega), h.absent n (by omega)]
  · refine hread.payloadInside ?_ h.inside
    rw [← h.source, List.length_append]
    exact Nat.le_add_left ..

theorem ReadUpTo.readFields {src : List Byte} (h : ReadUpTo src l x) (hy : readFields src.length l x = .ok y) :
    ReadUpTo src [] y := by
  induction hn : l.length using Nat.strong_induction_on generalizing l x with
  | _ n ih =>
    subst hn
    rcases readFields_ok hy with ⟨rfl, rfl⟩ | ⟨rest, x', hshort, hread, hrest⟩
    · exact h
    · exact ih _ hshort (h.step hread) hrest rfl

/-- The variables hold the envelope `e` of the source `l`. -/
structure Fields.Holds (x : Fields) (l : List Byte) (e : Envelope) : Prop where
  type : x.t = e.type
  channel : x.ch = e.channelId
  service : x.svc = some e.serviceId
  method : x.mth = some e.methodId
  payload : x.payload l = e.payload
  status : x.st = e.status

theorem envelopeDecode_ok_iff :
    envelopeDecode l = .ok (e, poff) ↔
      ∃ x, readFields l.length l fieldsStart = .ok x ∧ x.Holds l e ∧ x.poff = poff := by
  rw [envelopeDecode, readFields]
  cases fieldLoop l.length l.length l fieldsStart with
  | error _ => simp
  | ok x =>
    constructor
    · intro h
      dsimp only at h
      split at h
      next svc mth hsvc hmth =>
        cases h
        exact ⟨x, rfl, ⟨rfl, rfl, hsvc, hmth, rfl, rfl⟩, rfl⟩
      next => cases h
    · rintro ⟨_, hx, ⟨htype, hchannel, hservice, hmethod, hpayload, hstatus⟩, rfl⟩
      obtain rfl := Except.ok.inj hx
      cases e
      simp only [hservice, hmethod, Except.ok.injEq, Prod.mk.injEq, Envelope.mk.injEq, true_and, and_true]
      exact ⟨htype, hchannel, hpayload, hstatus⟩

theorem Fields.Holds.bytes_eq (h : x.Holds l e) : x.bytes l = envelopeEncode e := by
  obtain ⟨htype, hchannel, hservice, hmethod, hpayload, hstatus⟩ := h
  simp [Fields.bytes, Fields.part, envelopeEncode, readField, htype, hchannel, hservice, hmethod, hpayload, hstatus]

/-- An accepted string is its envelope's encoding: at the string's end the loop's invariant says so. -/
theorem envelopeDecode_ok (h : envelopeDecode l = .ok (e, poff)) :
    envelopeEncode e = l ∧ ∃ x : Fields, x.PayloadInside l ∧ x.payload l = e.payload ∧ x.poff = poff := by
  obtain ⟨x, hread, hholds, hpoff⟩ := envelopeDecode_ok_iff.1 h
  obtain ⟨hsource, -, hinside⟩ := (readUpTo_start l).readFields hread
  rw [List.append_nil, hholds.bytes_eq] at hsource
  exact ⟨hsource, x, hinside, hholds.payload, hpoff⟩

/-- What the index says about the payload (R132). -/
theorem envelopeDecode_payload (h : envelopeDecode l = .ok (e, poff)) :
    (poff = none ∧ e.payload = []) ∨
    ∃ n, poff = some n ∧ n + e.payload.length ≤ l.length ∧ (l.drop n).take e.payload.length = e.payload ∧
      e.payload ≠ [] ∧ e.payload.length < 2 ^ 32 := by
  obtain ⟨-, x, hinside, hpayload, rfl⟩ := envelopeDecode_ok h
  rw [← hpayload]
  unfold Fields.payload
  split
  next hn => exact .inl ⟨hn, rfl⟩
  next n hn =>
    obtain ⟨hin, hpos, hlt⟩ := hinside n hn
    have hlen : ((l.drop n).take x.plen).length = x.plen := by rw [List.length_take, List.length_drop]; omega
    exact .inr ⟨n, hn, by omega, by rw [hlen], List.ne_nil_of_length_pos (by omega), by omega⟩

/-! ### What the encoder produces is accepted (41_packet_protocol.md R130, R137) -/

/-- An optional field is read when it was sent and skipped when it was not; `x' k` is `x` with the field's value and the
number `k` of the field read last. -/
theorem readFields_optField {n : Nat} {key : Byte} {w : Word} {x' : Nat → Fields} (hlast : x.last < n)
    (habsent : w = 0#32 → x' x.last = x)
    (hread : ∀ rest, w.toNat ≠ 0 → FieldRead total x (field key w.toNat ++ rest) rest (x' n)) :
    ∃ k ≤ n, ∀ rest, readFields total (optField key w.toNat ++ rest) x = readFields total rest (x' k) := by
  by_cases hw : w = 0#32
  · refine ⟨x.last, hlast.le, fun rest => ?_⟩
    rw [habsent hw, hw]
    rfl
  · have hpos : w.toNat ≠ 0 := fun h => hw (BitVec.eq_of_toNat_eq h)
    exact ⟨n, le_rfl, fun rest => by rw [optField_pos hpos, (hread rest hpos).readFields_eq]⟩

/-- The index of a payload with `rest` after it. -/
def payloadIndex (total : Nat) (p rest : List Byte) : Option Nat :=
  if p = [] then none else some (total - (p ++ rest).length)

theorem readFields_payloadField {p : List Byte} (hp : p.length < 2 ^ 32) (hlast : x.last < 5) (hpoff : x.poff = none)
    (hplen : x.plen = 0) :
    ∃ k ≤ 5, readFields total (payloadField p ++ rest) x =
      readFields total rest { x with poff := payloadIndex total p rest, plen := p.length, last := k } := by
  cases p with
  | nil =>
    refine ⟨x.last, hlast.le, ?_⟩
    rw [payloadField_nil, List.nil_append]
    simp only [payloadIndex, if_true, List.length_nil, ← hpoff, ← hplen]
  | cons b p =>
    refine ⟨5, le_rfl, ?_⟩
    rw [payloadField, if_pos (by simp), List.append_assoc, (FieldRead.payload hlast (by simp) hp).readFields_eq]
    rfl

theorem readFields_nil : readFields total [] x = .ok x := fieldLoop_nil ..

/-- The variables once the four fields before the payload have been read. -/
def fieldsBeforePayload (e : Envelope) : Fields :=
  { fieldsStart with
    t := e.type, ch := e.channelId, svc := some e.serviceId, mth := some e.methodId, last := 4 }

theorem readFields_beforePayload (e : Envelope) (total : Nat) (rest : List Byte) :
    readFields total (optField 0x08#8 e.type.toNat ++ (optField 0x10#8 e.channelId.toNat ++
      (field 0x18#8 e.serviceId.toNat ++ (field 0x20#8 e.methodId.toNat ++ rest)))) fieldsStart =
      readFields total rest (fieldsBeforePayload e) := by
  obtain ⟨k₁, hk₁, htype⟩ := readFields_optField (total := total) (x := fieldsStart)
    (x' := fun k => { fieldsStart with t := e.type, last := k }) Nat.one_pos (fun h => by rw [h]; rfl)
    fun _ => .type Nat.one_pos
  obtain ⟨k₂, hk₂, hchannel⟩ := readFields_optField (total := total) (x := { fieldsStart with t := e.type, last := k₁ })
    (x' := fun k => { fieldsStart with t := e.type, ch := e.channelId, last := k }) (Nat.lt_succ_of_le hk₁)
    (fun h => by rw [h]; rfl) fun _ => .channel (Nat.lt_succ_of_le hk₁)
  rw [htype, hchannel, (FieldRead.service (Nat.lt_succ_of_le hk₂)).readFields_eq,
    (FieldRead.method (Nat.lt_succ_self 3)).readFields_eq]
  rfl

/-- The variables once the payload has been read as well, `k` being the number of the field read last. -/
def fieldsBeforeStatus (total : Nat) (e : Envelope) (k : Nat) : Fields :=
  { fieldsBeforePayload e with
    poff := payloadIndex total e.payload (optField 0x30#8 e.status.toNat), plen := e.payload.length, last := k }

/-- The loop reads an encoding to its end, and its variables then hold the envelope's fields. -/
theorem readFields_envelopeEncode (he : e.Legal) (total : Nat) :
    ∃ k, readFields total (envelopeEncode e) fieldsStart =
      .ok { fieldsBeforeStatus total e k with st := e.status } := by
  obtain ⟨k₅, hk₅, hpayload⟩ := readFields_payloadField (total := total) (rest := optField 0x30#8 e.status.toNat)
    (x := fieldsBeforePayload e) he (Nat.lt_succ_self 4) rfl rfl
  obtain ⟨k₆, -, hstatus⟩ := readFields_optField (total := total) (x := fieldsBeforeStatus total e k₅)
    (x' := fun k => { fieldsBeforeStatus total e k with st := e.status }) (Nat.lt_succ_of_le hk₅)
    (fun h => by rw [h]; rfl) fun _ => .status (Nat.lt_succ_of_le hk₅)
  have hend := hstatus []
  rw [List.append_nil, readFields_nil] at hend
  refine ⟨k₆, ?_⟩
  simp only [envelopeEncode, List.append_assoc, readFields_beforePayload]
  exact hpayload.trans hend

theorem envelopeDecode_envelopeEncode (he : e.Legal) : ∃ poff, envelopeDecode (envelopeEncode e) = .ok (e, poff) := by
  obtain ⟨k, hread⟩ := readFields_envelopeEncode he (envelopeEncode e).length
  refine ⟨_, envelopeDecode_ok_iff.2 ⟨_, hread, ⟨rfl, rfl, rfl, rfl, ?_, rfl⟩, rfl⟩⟩
  simp only [Fields.payload, fieldsBeforeStatus, payloadIndex]
  by_cases hp : e.payload = []
  · simp [hp]
  · have hsource : envelopeEncode e = optField 0x08#8 e.type.toNat ++ optField 0x10#8 e.channelId.toNat
        ++ field 0x18#8 e.serviceId.toNat ++ field 0x20#8 e.methodId.toNat ++ field 0x2A#8 e.payload.length
        ++ (e.payload ++ optField 0x30#8 e.status.toNat) := by
      simp [envelopeEncode, payloadField, hp]
    rw [if_neg hp, hsource]
    exact slice_before_rest ..

end

/-! ### The size of an encoding (41_packet_protocol.md R131, R133) -/

theorem field_length (key : Byte) (w : Word) : (field key w.toNat).length = 1 + vlen w.toNat := by
  rw [field, List.length_cons, venc_length _ w.isLt, Nat.add_comm]

theorem optField_length (key : Byte) (w : Word) :
    (optField key w.toNat).length = if w ≠ 0#32 then 1 + vlen w.toNat else 0 := by
  have hzero : w.toNat ≠ 0 ↔ w ≠ 0#32 := not_congr (BitVec.toNat_inj (y := 0#32))
  rw [optField, apply_ite List.length, field_length]
  exact if_congr hzero rfl rfl

theorem payloadField_length {p : List Byte} (hp : p.length < 2 ^ 32) :
    (payloadField p).length = payloadPart p.length := by
  rw [payloadField, payloadPart, apply_ite List.length, List.length_append, field, List.length_cons, venc_length _ hp,
    Nat.add_comm (vlen _)]
  rfl

theorem field_length_bounds (key : Byte) (w : Word) :
    2 ≤ (field key w.toNat).length ∧ (field key w.toNat).length ≤ 6 := by
  have hlen := vlen_bounds w.toNat
  rw [field_length]
  omega

theorem optField_length_le (key : Byte) (w : Word) : (optField key w.toNat).length ≤ 6 := by
  have hlen := vlen_bounds w.toNat
  rw [optField_length]
  split <;> omega

theorem encodedSize_bounds {e : Envelope} (he : e.Legal) :
    4 + payloadPart e.payload.length ≤ encodedSize e ∧ encodedSize e ≤ 30 + payloadPart e.payload.length := by
  have htype := optField_length_le 0x08#8 e.type
  have hchannel := optField_length_le 0x10#8 e.channelId
  have hservice := field_length_bounds 0x18#8 e.serviceId
  have hmethod := field_length_bounds 0x20#8 e.methodId
  have hstatus := optField_length_le 0x30#8 e.status
  simp only [encodedSize, envelopeEncode, List.length_append, payloadField_length he]
  omega

/-! ### The packet commands (41_packet_protocol.md R134, R135) -/

section
variable {s t : State}

theorem pdecBody_ok {e : Envelope} {poff : Option Nat} (hsrc : InRange s.cfg s.srcPtr s.srcLen)
    (hd : envelopeDecode (srcBytes s) = .ok (e, poff)) :
    pdecBody s = .next (((s.setEnvelope e poff).setOutLen s.srcLen).setResult .ok) := by
  rw [pdecBody, if_neg (by simp [hsrc]), hd]
  rfl

/-- A PDEC that ends in OK found an envelope. -/
theorem pdec_ok (h : exec .pdec s = .next t) (hok : t.result = .ok) :
    ∃ e poff, envelopeDecode (srcBytes s) = .ok (e, poff) := by
  rcases withPrologue_next (body := pdecBody) h with ⟨-, rfl⟩ | ⟨-, hb⟩
  · cases hok
  · rcases pdecBody_next hb with rfl | ⟨-, ⟨e, -, rfl⟩ | ⟨e, poff, hd, -⟩⟩
    · cases hok
    · cases hok
    · exact ⟨e, poff, hd⟩

/-- A PENC that ends in OK found FAULT 0, its regions in range and room for its envelope. -/
theorem penc_ok (h : exec .penc s = .next t) (hok : t.result = .ok) :
    s.fault = false ∧ InRange s.cfg s.pktPayPtr s.pktPayLen ∧ InRange s.cfg s.dstPtr s.dstCap ∧
      (envelopeEncode (pktEnvelope s)).length ≤ s.dstCap.toNat := by
  rcases withPrologue_next (body := pencBody) h with ⟨-, rfl⟩ | ⟨hf, hb⟩
  · cases hok
  · rcases pencBody_next hb with rfl | ⟨⟨hpay, hdst⟩, hd⟩
    · cases hok
    · rcases deliver_next hd with ⟨-, rfl⟩ | ⟨hfit, -⟩
      · cases hok
      · exact ⟨hf, hpay, hdst, hfit⟩

theorem pktEnvelope_legal (s : State) : (pktEnvelope s).Legal :=
  (pktPayload_length s).trans_lt s.pktPayLen.isLt

/-- A read inside a region is a slice of the region's bytes. -/
theorem memRead_slice (s : State) (a : Nat) {i n m : Nat} (h : i + n ≤ m) :
    memRead s (a + i) n = ((memRead s a m).drop i).take n := by
  refine List.ext_getElem (by simp; omega) fun j h1 h2 => ?_
  rw [memRead_getElem, List.getElem_take, List.getElem_drop, memRead_getElem, Nat.add_assoc]

theorem setEnvelope_none {e : Envelope} (hp : e.payload = []) :
    (s.setEnvelope e none).pktPayPtr = s.srcPtr ∧ (s.setEnvelope e none).pktPayLen = 0#32 := by
  simp [hp]

/-- The address of a payload at `n` in a source inside MEM fits its register, and so does its length. -/
theorem setEnvelope_some {e : Envelope} {n : Nat} (hc : s.cfg.wf = true) (hsrc : InRange s.cfg s.srcPtr s.srcLen)
    (hin : n + e.payload.length ≤ s.srcLen.toNat) (hne : e.payload ≠ []) :
    (s.setEnvelope e (some n)).pktPayPtr.toNat = s.srcPtr.toNat + n ∧
      (s.setEnvelope e (some n)).pktPayLen.toNat = e.payload.length := by
  obtain ⟨hmem, -⟩ := (Config.wf_iff _).1 hc
  have hpos := List.length_pos_iff.2 hne
  have hlt : s.srcPtr.toNat + n < 2 ^ 32 :=
    lt_of_lt_of_le (Nat.add_lt_add_left (by omega) _) (hsrc.trans hmem)
  exact ⟨(BitVec.toNat_ofNat ..).trans (Nat.mod_eq_of_lt hlt), toNat_ofNat_of_le (w := s.srcLen) (by omega)⟩

end

/-! ### The obligations of 41_packet_protocol.md -/

/-- Settles O14: an encoding is read field after field (envelopeDecode_envelopeEncode); of an accepted string the loop's
invariant ReadUpTo says that its bytes encode the variables. -/
theorem envelopeEncodingIsABijection : Obligations.EnvelopeEncodingIsABijection := by
  refine ⟨fun e => envelopeDecode_envelopeEncode, fun l e poff h => ⟨?_, (envelopeDecode_ok h).1⟩⟩
  rcases envelopeDecode_payload h with ⟨-, hnil⟩ | ⟨n, -, -, -, -, hlt⟩
  · rw [Envelope.Legal, hnil]; decide
  · exact hlt

/-- Settles O15: envelopeDecode_payload, whose two cases exclude each other. -/
theorem payloadIndexPointsAtThePayload : Obligations.PayloadIndexPointsAtThePayload := by
  intro l e poff h
  rcases envelopeDecode_payload h with ⟨rfl, hnil⟩ | ⟨m, rfl, hin, hslice, hne, -⟩
  · exact ⟨iff_of_true rfl hnil, nofun⟩
  · refine ⟨iff_of_false nofun hne, fun n hn => ?_⟩
    obtain rfl := Option.some.inj hn
    exact ⟨hin, hslice⟩

/-- Settles O16: the six parts' lengths. -/
theorem encodedSizeFormula : Obligations.EncodedSizeFormula := by
  intro e he
  refine ⟨rfl, ?_⟩
  simp only [encodedSize, envelopeEncode, List.length_append, optField_length, field_length, payloadField_length he,
    payloadPart]
  omega

/-- Settles O17: encodedSize_bounds; the upper bound is used where the minimum is not reached. -/
theorem sizeBoundsBoundTheSize : Obligations.SizeBoundsBoundTheSize := by
  refine ⟨fun n => ⟨rfl, rfl, rfl⟩, fun e he => ?_⟩
  obtain ⟨hlow, hhigh⟩ := encodedSize_bounds he
  exact ⟨(min_le_left ..).trans hlow, fun hfits => hhigh.trans (min_eq_left hfits).ge⟩

/-- Settles O23: each bound is written as `saturate` of a sum, which fits its register (saturate_toNat). -/
theorem psizeWritesTheBounds : Obligations.PsizeWritesTheBounds := by
  refine ⟨fun s hf => ?_, by decide⟩
  exact ⟨_, withPrologue_ready hf, rfl, saturate_toNat _, saturate_toNat _⟩

/-- Settles O21: past its checks PENC delivers the envelope, which was computed from MEM before the store. -/
theorem pencStoresTheEnvelope : Obligations.PencStoresTheEnvelope := by
  intro s hf hpay hdst e hfit
  obtain ⟨t, hd, houtput⟩ := deliver_output (more := id) hfit fun _ => ⟨rfl, rfl⟩
  exact ⟨t, (withPrologue_ready hf).trans ((pencBody_ready hpay hdst).trans hd), houtput⟩

/-- Settles O22: the payload lies inside the source (envelopeDecode_payload) and the source inside MEM, so its address
and its length fit their registers. -/
theorem pdecPointsAtThePayload : Obligations.PdecPointsAtThePayload := by
  intro s e poff hc hf hsrc hd
  have hreads := memRead_congr_mem (s := s) (t := ((s.setEnvelope e poff).setOutLen s.srcLen).setResult .ok) rfl rfl
  refine ⟨_, (withPrologue_ready hf).trans (pdecBody_ok hsrc hd), rfl, ?_⟩
  simp only [hreads, State.setResult_pktPayPtr, State.setOutLen_pktPayPtr, State.setResult_pktPayLen,
    State.setOutLen_pktPayLen]
  rcases envelopeDecode_payload hd with ⟨rfl, hnil⟩ | ⟨m, rfl, hin, hslice, hne, -⟩
  · obtain ⟨hptr, hlen⟩ := setEnvelope_none (s := s) hnil
    rw [hptr, hlen, hnil]
    exact ⟨rfl, nofun, fun _ => rfl, rfl⟩
  · rw [memRead_length] at hin
    obtain ⟨hptr, hlen⟩ := setEnvelope_some hc hsrc hin hne
    rw [hptr, hlen, memRead_slice _ _ hin, hslice]
    exact ⟨rfl, fun n hn => by rw [Option.some.inj hn], nofun, rfl⟩

/-- Settles O49: by O21 the source of PDEC is the envelope that PENC stored, by O14 it decodes to it, and by O22 PDEC
points at its payload. -/
theorem pdecUndoesPenc : Obligations.PdecUndoesPenc := by
  intro s t hc h hok
  obtain ⟨hf, hpay, hdst, hfit⟩ := penc_ok h hok
  obtain ⟨t', h', -, houtLen, hstored, -⟩ := pencStoresTheEnvelope s hf hpay hdst hfit
  obtain rfl : t' = t := Host.Outcome.next.inj (h'.symm.trans h)
  have hcfg : t'.cfg = s.cfg := (surroundings_eq_iff.1 (surroundings_exec .penc h)).1
  have hfault : t'.fault = false := (flags_eq_iff.1 (flags_exec h nofun nofun)).2.trans hf
  have hread : InRange t'.cfg s.dstPtr t'.outLen := by
    rw [hcfg, InRange, houtLen]
    exact (Nat.add_le_add_left hfit _).trans hdst
  have hsource : memRead t' s.dstPtr.toNat t'.outLen.toNat = envelopeEncode (pktEnvelope s) := houtLen ▸ hstored
  obtain ⟨poff, hd⟩ := envelopeDecode_envelopeEncode (pktEnvelope_legal s)
  obtain ⟨u, hu, hueq, hlen, -, -, hpayload⟩ :=
    pdecPointsAtThePayload (t'.setRegions s.dstPtr t'.outLen t'.dstPtr t'.dstCap) (pktEnvelope s) poff
      (hcfg ▸ hc) hfault hread ((congrArg envelopeDecode ((srcBytes_setRegions ..).trans hsource)).trans hd)
  refine ⟨u, hu, ?_, ?_, ?_, ?_, ?_, ?_, BitVec.eq_of_toNat_eq (hlen.trans (pktPayload_length s)), hpayload⟩ <;>
    rw [hueq] <;> rfl

/-- Settles O50: pdecBody_ok one way, pdec_ok the other, and O14 on both. -/
theorem pdecAcceptsExactlyTheEncodings : Obligations.PdecAcceptsExactlyTheEncodings := by
  intro s hf hsrc
  constructor
  · rintro ⟨t, h, hok⟩
    obtain ⟨e, poff, hd⟩ := pdec_ok h hok
    exact ⟨e, envelopeEncodingIsABijection.2 _ e poff hd⟩
  · rintro ⟨e, he, henc⟩
    obtain ⟨poff, hd⟩ := envelopeDecode_envelopeEncode he
    rw [henc] at hd
    exact ⟨_, (withPrologue_ready hf).trans (pdecBody_ok hsrc hd), rfl⟩

end Sys2Proof.Machine

namespace Sys2Proof.Machine

/-! ### The commands of the Channel Output in each case of their checks (42_channel_output.md R162, R163) -/

section
variable {s : State}

theorem acq_with_region_free (hf : s.fault = false) (ha : s.acquired = false) :
    exec .acq s =
      .next ((((s.setAcquired true).setOutAux (BitVec.ofNat 32 s.cfg.chBufBase)).setOutLen
        (BitVec.ofNat 32 (cap s.cfg))).setResult .ok) :=
  (withPrologue_ready hf).trans (if_neg (by simp [ha]))

theorem acq_with_region_outstanding (hf : s.fault = false) (ha : s.acquired = true) :
    exec .acq s = .next ((s.setFault true).setResult .contractViolation) :=
  (withPrologue_ready hf).trans (if_pos ha)

theorem rel_out_of_contract (hf : s.fault = false) (h : s.acquired = false ∨ cap s.cfg < s.srcLen.toNat) :
    exec .rel s = .next ((s.setFault true).setResult .contractViolation) :=
  (withPrologue_ready hf).trans (if_pos h)

theorem rel_in_contract (hf : s.fault = false) (ha : s.acquired = true) (hn : s.srcLen.toNat ≤ cap s.cfg) :
    exec .rel s = sinkWriteAndRelease (relFrame s) s :=
  (withPrologue_ready hf).trans (if_neg (by simp [ha, hn]))

theorem contractBroken_rel_iff : ContractBroken .rel s ↔ s.acquired = false ∨ cap s.cfg < s.srcLen.toNat := by
  simp [ContractBroken]

theorem not_contractBroken_rel_iff : ¬ ContractBroken .rel s ↔ s.acquired = true ∧ s.srcLen.toNat ≤ cap s.cfg := by
  rw [contractBroken_rel_iff, not_or, Bool.not_eq_false, not_lt]

end

/-! ### The sink port (42_channel_output.md R165, R166, R167) -/

section
variable {s t : State} {f : List Byte}

theorem sinkAnswer_eq_ok_iff {r : SinkReply} : sinkAnswer f r = some .ok ↔ ∃ n, r = .written n ∧ f.length ≤ n := by
  cases r with
  | written n => simp [sinkAnswer]
  | error => simp [sinkAnswer]
  | noAnswer => simp [sinkAnswer]

theorem sinkWriteAndRelease_silent (h : sinkReply s = .noAnswer) :
    sinkWriteAndRelease f s = .next (s.takeReply.setWaiting (some f)) := by
  rw [sinkWriteAndRelease, sinkAnswer_eq_none.2 h]

/-- What the block keeps of its transactions: the history, their count and the frame waited with. -/
def transactions (s : State) : List SinkRecord × Nat × Option (List Byte) := (s.sinkHistory, s.sinkCount, s.waiting)

theorem transactions_eq_iff :
    transactions t = transactions s ↔
      t.sinkHistory = s.sinkHistory ∧ t.sinkCount = s.sinkCount ∧ t.waiting = s.waiting := by
  simp [transactions]

/-- No command but REL reaches the sink. -/
theorem transactions_exec {i : Instr} (h : exec i s = .next t) (hrel : i ≠ .rel) :
    transactions t = transactions s := by
  cases i with
  | rel => exact absurd rfl hrel
  | fenc => exact (congrArg transactions (fenc_frame h).1).trans rfl
  | fdec => exact (congrArg transactions (fdec_frame h).1).trans rfl
  | penc => exact (congrArg transactions (penc_frame h).1).trans rfl
  | pdec => exact (congrArg transactions (pdec_frame h)).trans rfl
  | psize => exact (congrArg transactions (psize_frame h)).trans rfl
  | acq => exact (congrArg transactions (acq_frame h)).trans rfl

/-- A REL that a set FAULT or its contract stops does not reach the sink either. -/
theorem transactions_rel_stopped (h : exec .rel s = .next t) (hstop : s.fault = true ∨ ContractBroken .rel s) :
    transactions t = transactions s := by
  rcases withPrologue_next (body := relBody) h with ⟨-, rfl⟩ | ⟨hf, -⟩
  · rfl
  · have hbroken : ContractBroken .rel s := hstop.resolve_left (by simp [hf])
    rcases rel_next hf h with ⟨-, rfl⟩ | ⟨hkept, -⟩
    · rfl
    · exact absurd hbroken hkept

end

/-! ### The capacity and the length of a frame (42_channel_output.md R161) -/

theorem le_cap_iff {c : Config} (hc : c.wf = true) (n : Nat) : n ≤ cap c ↔ 2 * n + 14 ≤ c.bufSize := by
  obtain ⟨-, hbuf, -⟩ := (Config.wf_iff c).1 hc
  unfold cap
  omega

/-- A control byte that needs no escape keeps a frame one byte below the general bound. -/
theorem frameEncode_length_le_of_plain_control {c : Byte} (hflag : c ≠ FLAG) (hesc : c ≠ ESC) (a : Byte)
    (p : List Byte) : (frameEncode a c p).length ≤ 2 * p.length + 13 := by
  have hraw : escapeAll (frameRaw a c p) = esc a ++ c :: escapeAll (p ++ fcs (a :: c :: p)) := by
    rw [frameRaw, List.cons_append, List.cons_append, escapeAll_cons, escapeAll_cons_plain _ hflag hesc]
  have haddress := esc_length_le a
  have hrest := escapeAll_length_le (p ++ fcs (a :: c :: p))
  rw [List.length_append, fcs_length] at hrest
  rw [frameEncode_length, hraw, List.length_append, List.length_cons]
  omega

/-- Even where BUF_SIZE is 2 ^ 32, the length of REL's frame fits OUT_LEN: CONTROL 0x00 needs no escape. -/
theorem relFrame_length_lt {s : State} (hc : s.cfg.wf = true) (hn : s.srcLen.toNat ≤ cap s.cfg) :
    (relFrame s).length < 2 ^ 32 := by
  have hlen : (relFrame s).length ≤ 2 * (usedBytes s).length + 13 :=
    frameEncode_length_le_of_plain_control (by decide) (by decide) ..
  obtain ⟨hmem, -, hinside, -⟩ := (Config.wf_iff _).1 hc
  have hbuf := (le_cap_iff hc _).1 hn
  rw [usedBytes_length] at hlen
  omega

/-! ### A block that waits (42_channel_output.md R166, 70_reset_and_hazards.md R200) -/

theorem takeReset_eq_none {l : List Input} (h : .reset ∉ l) : takeReset l = none := by
  rw [Option.eq_none_iff_forall_ne_some]
  intro rest hrest
  obtain ⟨before, after, rfl, -⟩ := takeReset_some hrest
  simp at h

theorem takeReset_cons {i : Input} (hi : i ≠ .reset) (l : List Input) :
    takeReset (i :: l) = (takeReset l).map (i :: ·) := by
  cases i
  case reset => exact absurd rfl hi
  all_goals simp only [takeReset]; cases takeReset l <;> rfl

theorem takeReset_append {before : List Input} (h : .reset ∉ before) (after : List Input) :
    takeReset (before ++ .reset :: after) = some (before ++ after) := by
  induction before with
  | nil => rfl
  | cons i before ih =>
    rw [List.cons_append, takeReset_cons (List.ne_of_not_mem_cons h).symm, ih (List.not_mem_of_not_mem_cons h)]
    rfl

theorem step_waiting {s : State} {f : List Byte} (hc : s.cfg.wf = true) (hw : s.waiting = some f) :
    step s = stepWaiting s := by
  rw [step, stepBus, if_pos hc, hw]

/-! ### The obligations of 42_channel_output.md -/

/-- Settles O25: rel_in_contract and the answered case of the sink port; the sink's answer is Ok exactly where it is good
(sinkAnswer_eq_ok_iff), and OUT_LEN holds the length by relFrame_length_lt. -/
theorem relSendsTheFrameAndReleases : Obligations.RelSendsTheFrameAndReleases := by
  intro s r hc hf ha hn hr hanswer f good
  subst hr
  have hgood : sinkAnswer (relFrame s) (sinkReply s) = some .ok ↔ good := sinkAnswer_eq_ok_iff
  obtain ⟨t, ht⟩ := exec_answers .rel s
  rcases sinkWriteAndRelease_next ((rel_in_contract hf ha hn).symm.trans ht) with ⟨hnone, -⟩ | ⟨a, hsome, rfl⟩
  · exact absurd (sinkAnswer_eq_none.1 hnone) hanswer
  · have hlen : (BitVec.ofNat 32 (relFrame s).length).toNat = (relFrame s).length :=
      (BitVec.toNat_ofNat ..).trans (Nat.mod_eq_of_lt (relFrame_length_lt hc hn))
    refine ⟨_, a, ht, ?_, hlen, fun h => ?_, fun h => ?_⟩
    · simp only [State.takeReply, State.recordSink, State.setAcquired, State.setOutLen, State.setResult]
      rfl
    · obtain rfl : a = .ok := Option.some.inj (hsome.symm.trans (hgood.2 h))
      exact ⟨rfl, rfl⟩
    · cases a with
      | ok => exact absurd (hgood.1 hsome) h
      | err => exact ⟨rfl, rfl⟩

/-- Settles O40: in contract REL is the sink port, whose two cases are the history and the wait; the rest is
transactions_exec and transactions_rel_stopped. -/
theorem oneTransactionPerRel : Obligations.OneTransactionPerRel := by
  refine ⟨fun s t hf hkept h => ?_, fun i s t hno h => transactions_eq_iff.1 ?_⟩
  · obtain ⟨ha, hn⟩ := not_contractBroken_rel_iff.1 hkept
    refine ⟨relFrame s, frameDecode_frameEncode .., ?_⟩
    rcases sinkWriteAndRelease_next ((rel_in_contract hf ha hn).symm.trans h) with ⟨-, rfl⟩ | ⟨a, -, rfl⟩
    · exact ⟨rfl, .inr ⟨rfl, rfl⟩⟩
    · exact ⟨rfl, .inl ⟨a, rfl⟩⟩
  · by_cases hrel : i = .rel
    · subst hrel
      exact transactions_rel_stopped h (hno.resolve_left (absurd rfl))
    · exact transactions_exec h hrel

/-- Settles O41: le_cap_iff, and the first part of a sound channel frame. -/
theorem capacityIsTheLargestThatFits : Obligations.CapacityIsTheLargestThatFits :=
  ⟨fun _ hc => le_cap_iff hc, fun _ hc hn => (channelFrame_relFrame hc hn).1, fun c hbuf => by rw [cap, hbuf]⟩

/-- Settles O24: the two cases of ACQ's check; the base and the capacity lie inside MEM, so they fit their registers. -/
theorem acqHandsOutTheRegion : Obligations.AcqHandsOutTheRegion := by
  refine ⟨fun s hc hf ha => ?_, fun s => acq_with_region_outstanding, fun c p hbase hbuf => ?_⟩
  · obtain ⟨hmem, hbuf, hinside, -⟩ := (Config.wf_iff _).1 hc
    have hcap := two_mul_cap_add_le hc
    exact ⟨_, acq_with_region_free hf ha, rfl, (BitVec.toNat_ofNat ..).trans (Nat.mod_eq_of_lt (by omega)),
      (BitVec.toNat_ofNat ..).trans (Nat.mod_eq_of_lt (by omega))⟩
  · have hcap : cap c = 25 := by rw [cap, hbuf]
    rw [acq_with_region_free (s := State.resetWith c p) rfl rfl, State.resetWith_cfg, hbase, hcap]
    rfl

/-- Settles O26: rel_out_of_contract. -/
theorem relOutOfContractSendsNothing : Obligations.RelOutOfContractSendsNothing := fun _ => rel_out_of_contract

/-- Settles O27: in contract REL is the sink port, and this is its silent case. -/
theorem relWithoutAnAnswerWaits : Obligations.RelWithoutAnAnswerWaits :=
  fun _ hf ha hn hsilent => (rel_in_contract hf ha hn).trans (sinkWriteAndRelease_silent hsilent)

/-- Settles O28: a waiting block's step looks for a reset alone, and takeReset finds the first one. -/
theorem waitingBlockIsStuckUntilReset : Obligations.WaitingBlockIsStuckUntilReset := by
  refine fun s f hc hw => ⟨fun hno => ?_, fun l1 l2 hin hfirst => ?_⟩
  · rw [step_waiting hc hw, stepWaiting, takeReset_eq_none hno]
  · rw [step_waiting hc hw, stepWaiting, hin, takeReset_append hfirst]
    rfl

end Sys2Proof.Machine

namespace Sys2Proof.Machine

/-! ### What an unfaulted command does in each case of the priority list (60_exceptions.md R183) -/

section
variable {i : Instr} {s t u : State}

theorem next_unique {o : Answer} (h : o = .next t) (h' : o = .next u) : t = u :=
  Host.Outcome.next.inj (h.symm.trans h')

theorem exec_of_contractBroken (hf : s.fault = false) (h : ContractBroken i s) :
    exec i s = .next ((s.setFault true).setResult .contractViolation) := by
  rcases h with ⟨rfl, ha⟩ | ⟨rfl, hrel⟩
  · exact acq_with_region_outstanding hf ha
  · exact rel_out_of_contract hf hrel

/-- Bad content has one of two names, by the command that found it. -/
theorem exec_of_contentBroken (hf : s.fault = false) (hr : ¬ RangeBroken i s) (h : ContentBroken i s) :
    (i = .fdec ∧ exec i s = .next (s.setResult .corruptFrame)) ∨
    (i = .pdec ∧ exec i s = .next (s.setResult .malformedPacket)) := by
  have ⟨hfdec, hpdec⟩ := badContentChangesNothingElse
  rcases h with ⟨rfl, hbad⟩ | ⟨rfl, hbad⟩
  · exact .inl ⟨rfl, hfdec s hf hr (.inl ⟨rfl, hbad⟩)⟩
  · exact .inr ⟨rfl, hpdec s hf hr (.inr ⟨rfl, hbad⟩)⟩

theorem exec_of_tooSmall {out : List Byte} (hf : s.fault = false) (hr : ¬ RangeBroken i s) (hout : OutputOf i s out)
    (hlong : s.dstCap.toNat < out.length) :
    exec i s = .next ((s.setOutLen (saturate out.length)).setResult .bufferTooSmall) :=
  tooSmallReportsTheLengthNeeded.1 i s out hf hr hout hlong

/-- The state after a REL whose sink answered Err. -/
def sinkErrorState (s : State) : State :=
  { s with acquired := false, outLen := BitVec.ofNat 32 (relFrame s).length, result := .sinkError,
           sinkHistory := s.sinkHistory ++ [{ frame := relFrame s, answer := .err }],
           sinkReplies := s.sinkReplies.tail, sinkCount := s.sinkCount + 1 }

theorem exec_of_sinkFails (hf : s.fault = false) (hc : ¬ ContractBroken i s) (h : SinkFails i s) :
    exec i s = .next (sinkErrorState s) := by
  obtain ⟨rfl, herr⟩ := h
  obtain ⟨ha, hn⟩ := not_contractBroken_rel_iff.1 hc
  rw [rel_in_contract hf ha hn, sinkWriteAndRelease, herr]
  simp only [raise, State.takeReply, State.recordSink, State.setAcquired, State.setOutLen, State.setResult]
  rfl

theorem exec_ok_of_outputOf {out : List Byte} (h : exec i s = .next t) (hf : s.fault = false) (hr : ¬ RangeBroken i s)
    (hout : OutputOf i s out) (hfit : ¬ DoesNotFit i s) : t.result = .ok := by
  obtain ⟨more, hexec⟩ := exec_of_outputOf hf hr hout
  have hlen : out.length ≤ s.dstCap.toNat := not_lt.1 fun hlong => hfit ⟨out, hout, hlong⟩
  rw [next_unique h (hexec.trans (deliver_fits hlen)), State.setResult_result]

theorem rel_ok_of_answered (h : exec .rel s = .next t) (hf : s.fault = false) (hc : ¬ ContractBroken .rel s)
    (hfail : ¬ SinkFails .rel s) (hsilent : ¬ SinkSilent .rel s) : t.result = .ok := by
  obtain ⟨ha, hn⟩ := not_contractBroken_rel_iff.1 hc
  rcases sinkWriteAndRelease_next ((rel_in_contract hf ha hn).symm.trans h) with ⟨hnone, -⟩ | ⟨a, hsome, rfl⟩
  · exact absurd ⟨rfl, sinkAnswer_eq_none.1 hnone⟩ hsilent
  · cases a with
    | ok => rfl
    | err => exact absurd ⟨rfl, hsome⟩ hfail

/-- A command that no condition of the list applies to, and whose sink is not silent, ends in OK. -/
theorem exec_ok_of_none_applies (h : exec i s = .next t) (hf : s.fault = false) (hc : ¬ ContractBroken i s)
    (hr : ¬ RangeBroken i s) (hb : ¬ ContentBroken i s) (hfit : ¬ DoesNotFit i s) (hfail : ¬ SinkFails i s)
    (hsilent : ¬ SinkSilent i s) : t.result = .ok := by
  cases i with
  | fenc => exact exec_ok_of_outputOf h hf hr (.inl ⟨rfl, rfl⟩) hfit
  | fdec =>
    obtain ⟨d, hd⟩ : ∃ d, frameDecode (srcBytes s) = .ok d := by simpa [ContentBroken] using hb
    exact exec_ok_of_outputOf h hf hr (.inr (.inl ⟨rfl, d, hd, rfl⟩)) hfit
  | penc => exact exec_ok_of_outputOf h hf hr (.inr (.inr ⟨rfl, rfl⟩)) hfit
  | pdec =>
    obtain ⟨e, poff, hd⟩ : ∃ e poff, envelopeDecode (srcBytes s) = .ok (e, poff) := by
      simpa [ContentBroken] using hb
    rw [next_unique h ((withPrologue_ready hf).trans (pdecBody_ok (not_rangeBroken_pdec hr) hd)),
      State.setResult_result]
  | psize => rw [psizeBody_next ((withPrologue_ready hf).symm.trans h), State.setResult_result]
  | acq =>
    rcases acq_next hf h with ⟨ha, -⟩ | ⟨-, -, -, hok⟩
    · exact absurd (.inl ⟨rfl, ha⟩) hc
    · exact hok
  | rel => exact rel_ok_of_answered h hf hc hfail hsilent

end

/-! ### The table of result codes (60_exceptions.md R180) -/

section
variable {w : Word} {s t : State}

/-- The table's row of a result: what a write of `w` to CMD that ends in it found in `s`, and what it has written. -/
def ResultRow (w : Word) (s t : State) : Result → Prop
  | .ok => ∃ i, decode w = .ok i ∧ s.fault = false
  | .corruptFrame => decode w = .ok .fdec ∧ ContentBroken .fdec s ∧ t = s.setResult .corruptFrame
  | .bufferTooSmall => ∃ i out, decode w = .ok i ∧ OutputOf i s out ∧ s.dstCap.toNat < out.length ∧
      t = (s.setOutLen (saturate out.length)).setResult .bufferTooSmall
  | .malformedPacket => decode w = .ok .pdec ∧ ContentBroken .pdec s ∧ t = s.setResult .malformedPacket
  | .contractViolation => (∃ i, decode w = .ok i ∧ ContractBroken i s) ∧
      t = (s.setFault true).setResult .contractViolation
  | .badCommand => IllegalWord w ∧ t = s.setResult .badCommand
  | .badRange => (∃ i, decode w = .ok i ∧ RangeBroken i s) ∧ t = s.setResult .badRange
  | .sinkError => decode w = .ok .rel ∧ SinkFails .rel s ∧ t = sinkErrorState s
  | .faulted => s.fault = true ∧ t = s.setResult .faulted

/-- A command's ending is in the table: the case split is the priority list. -/
theorem resultRow_of_exec {i : Instr} (hd : decode w = .ok i) (hf : s.fault = false) (h : exec i s = .next t)
    (hsilent : ¬ SinkSilent i s) : ResultRow w s t t.result := by
  by_cases hc : ContractBroken i s
  · obtain rfl := next_unique h (exec_of_contractBroken hf hc)
    exact ⟨⟨i, hd, hc⟩, rfl⟩
  by_cases hr : RangeBroken i s
  · obtain rfl := next_unique h (exec_of_rangeBroken hf hr)
    exact ⟨⟨i, hd, hr⟩, rfl⟩
  by_cases hb : ContentBroken i s
  · rcases exec_of_contentBroken hf hr hb with ⟨rfl, hbad⟩ | ⟨rfl, hbad⟩
    · obtain rfl := next_unique h hbad
      exact ⟨hd, hb, rfl⟩
    · obtain rfl := next_unique h hbad
      exact ⟨hd, hb, rfl⟩
  by_cases hfit : DoesNotFit i s
  · obtain ⟨out, hout, hlong⟩ := hfit
    obtain rfl := next_unique h (exec_of_tooSmall hf hr hout hlong)
    exact ⟨i, out, hd, hout, hlong, rfl⟩
  by_cases hfail : SinkFails i s
  · obtain rfl := next_unique h (exec_of_sinkFails hf hc hfail)
    obtain ⟨rfl, herr⟩ := hfail
    exact ⟨hd, ⟨rfl, herr⟩, rfl⟩
  rw [exec_ok_of_none_applies h hf hc hr hb hfit hfail hsilent]
  exact ⟨i, hd, hf⟩

theorem resultRow_of_writeCmd (h : writeCmd w s = .next t) (hsilent : ∀ i, decode w = .ok i → ¬ SinkSilent i s) :
    ResultRow w s t t.result := by
  rcases writeCmd_next h with ⟨hf, rfl⟩ | ⟨-, ⟨e, he⟩, rfl⟩ | ⟨hf, i, hd, hexec⟩
  · exact ⟨hf, rfl⟩
  · exact ⟨illegalWord_iff.2 fun i hd => absurd (he.symm.trans hd) nofun, rfl⟩
  · exact resultRow_of_exec hd hf hexec (hsilent i hd)

theorem resultCode_le (r : Result) : (resultCode r).toNat ≤ 8 := by cases r <;> decide

end

/-! ### The obligations of 60_exceptions.md -/

/-- Settles O29: writeCmd_faulted for any word, exec_faulted for a command. -/
theorem faultedBlockRunsNothing : Obligations.FaultedBlockRunsNothing :=
  ⟨fun _ w _ h hf => (step_writeCmd h).trans (writeCmd_faulted w hf), fun i _ hf => exec_faulted i hf⟩

/-- Settles O33: the ending's row of the table, resultRow_of_writeCmd, read at each of the nine results. -/
theorem resultCodesWriteWhatTheirTableSays : Obligations.ResultCodesWriteWhatTheirTableSays := by
  refine ⟨⟨rfl, rfl, rfl, rfl, rfl, rfl, rfl, rfl, rfl, resultCode_le⟩, fun w s t h hsilent => ?_⟩
  have hrow : ∀ r, t.result = r → ResultRow w s t r := fun r hr => hr ▸ resultRow_of_writeCmd h hsilent
  exact ⟨hrow .ok, hrow .corruptFrame, hrow .bufferTooSmall, hrow .malformedPacket, hrow .contractViolation,
    hrow .badCommand, hrow .badRange, hrow .sinkError, hrow .faulted⟩

/-- Settles O34: each entry of the list is the command's one next state under that condition, and where none applies
exec_ok_of_none_applies. -/
theorem firstApplicableResultIsReported : Obligations.FirstApplicableResultIsReported := by
  intro w s t h
  refine ⟨fun hf => ?_, fun hf hillegal => ?_, fun i hf hd => ?_⟩
  · rw [next_unique h (writeCmd_faulted w hf), State.setResult_result]
  · rw [next_unique h (writeCmd_of_illegalWord hillegal s), hf]
    rfl
  rw [writeCmd_of_decode hd] at h
  refine ⟨fun hc => ?_, fun _ hr => ?_, fun _ hr hb => ?_, ?_, fun hc _ _ _ hfail => ?_,
    fun hc hr hb hfit hfail hsilent => exec_ok_of_none_applies h hf hc hr hb hfit hfail hsilent⟩
  · rw [next_unique h (exec_of_contractBroken hf hc), State.setResult_result]
  · rw [next_unique h (exec_of_rangeBroken hf hr), State.setResult_result]
  · rcases exec_of_contentBroken hf hr hb with ⟨rfl, hbad⟩ | ⟨rfl, hbad⟩
    · exact ⟨fun _ => by rw [next_unique h hbad, State.setResult_result], nofun⟩
    · exact ⟨nofun, fun _ => by rw [next_unique h hbad, State.setResult_result]⟩
  · rintro - hr - ⟨out, hout, hlong⟩
    rw [next_unique h (exec_of_tooSmall hf hr hout hlong), State.setResult_result]
  · rw [next_unique h (exec_of_sinkFails hf hc hfail), sinkErrorState]

end Sys2Proof.Machine

namespace Sys2Proof.Machine

/-! ### The largest envelope without a payload (70_reset_and_hazards.md R208) -/

/-- Every field but the payload at its largest value, whose varint is the longest. -/
def largestWithoutPayload : Envelope :=
  { type := 0xFFFFFFFF#32, channelId := 0xFFFFFFFF#32, serviceId := 0xFFFFFFFF#32, methodId := 0xFFFFFFFF#32,
    payload := [], status := 0xFFFFFFFF#32 }

theorem encodedSize_largestWithoutPayload : encodedSize largestWithoutPayload = 30 := by decide

theorem encodedSize_le_thirty {e : Envelope} (hp : e.payload = []) : encodedSize e ≤ 30 := by
  have hlegal : e.Legal := by simp [Envelope.Legal, hp]
  simpa [hp, payloadPart] using (encodedSize_bounds hlegal).2

/-- The bound is the capacity every envelope without a payload needs, because the largest one reaches it. -/
theorem withoutPayload_fits_iff {n : Nat} : (∀ e : Envelope, e.payload = [] → encodedSize e ≤ n) ↔ 30 ≤ n :=
  ⟨fun h => encodedSize_largestWithoutPayload ▸ h largestWithoutPayload rfl,
    fun h _ hp => (encodedSize_le_thirty hp).trans h⟩

theorem thirty_le_cap_iff (c : Config) : 30 ≤ cap c ↔ 74 ≤ c.bufSize := by
  unfold cap
  omega

/-! ### The step of a reset (70_reset_and_hazards.md R200, R201) -/

theorem readOffset_applyReset (s : State) (off : Nat) : readOffset (applyReset s) off = 0#32 :=
  readOffset_resetWith s.cfg s.powerOn off

/-- Whether the block is idle or waits, a reset that comes first is applied. -/
theorem step_reset {s : State} {l : List Input}
    (h : NextInput s .reset l ∨ (s.cfg.wf = true ∧ s.waiting ≠ none ∧ s.inputs = .reset :: l)) :
    step s = .next (applyReset (s.setInputs l)) := by
  rcases h with hidle | ⟨hc, hw, hin⟩
  · exact step_of_next hidle
  · obtain ⟨f, hf⟩ := Option.ne_none_iff_exists'.1 hw
    rw [step_waiting hc hf, stepWaiting, hin, takeReset]

/-! ### The invariant after reset -/

/-- After reset nothing is stored, sent or waited for, so the legality of the configuration is all that is left. -/
theorem inv_resetWith {c : Config} (hc : c.wf = true) (p : Nat) : Inv (State.resetWith c p) where
  config := hc
  memory := .nil
  inside := nofun
  faulted := by simp [FaultMatchesResult]
  waits := nofun
  history := nofun

/-! ### The obligations of 70_reset_and_hazards.md -/

/-- Settles O18: withoutPayload_fits_iff at CAP, and the arithmetic of CAP. -/
theorem errorEnvelopeFitsFromThirty : Obligations.ErrorEnvelopeFitsFromThirty :=
  ⟨fun _ => encodedSize_le_thirty, fun c => ⟨withoutPayload_fits_iff, thirty_le_cap_iff c⟩⟩

/-- Settles O58: the next state is applyReset, which sets every register as in the reset state and keeps MEM and the
power-on, all that a byte read depends on. -/
theorem resetKeepsOnlyMem : Obligations.ResetKeepsOnlyMem :=
  fun s l h => ⟨applyReset (s.setInputs l), step_reset h, readOffset_applyReset _, rfl, rfl, rfl, rfl, rfl, rfl,
    readByte_congr rfl rfl⟩

/-- Settles O46: inv_resetWith; the configuration of 95_test_vectors.md is legal. -/
theorem resetMeetsTheInvariant : Obligations.ResetMeetsTheInvariant :=
  ⟨inv_resetWith (by decide) 0, fun _ p hc => inv_resetWith hc p⟩

end Sys2Proof.Machine
